-- ==== Sys2Proof/Word.lean ====
section
/-! DEFINITION. The words of the part: bytes, 32-bit cell words and 64-bit keys (R61, R180). -/

namespace Sys2Proof

/-- One byte of a frame, a cell or a management message (R180). -/
abbrev Byte := BitVec 8

/-- One word of a scrambled payload, and one half of a key (R61). -/
abbrev Word32 := BitVec 32

/-- A unit key, an access key or a cell key (R50). -/
abbrev Key := BitVec 64

/-- The serial number of a cell key, modulo 256 (R56). -/
abbrev Epoch := BitVec 8

end Sys2Proof
end

