-- ==== Sys2Proof/Syntax.lean ====
section
/-! DEFINITION. The commands of the part: one constructor per row of spec/opcode_table.json. -/

namespace Sys2Proof

/-- A screen, which is also its output: screen n of the manual is `n - 1` here (Overview 6.7). -/
abbrev Screen := Fin 4

/-- A cipher engine: engine n of the manual is `n - 1` here (R67). -/
abbrev EngineId := Fin 3

/-- What a start-up learns from outside the part: whether the Retained Store passes its check at stage 2
(R176), and what the first presence probe of each output finds at stage 1 (R95). -/
structure Boot where
  storeIntact : Bool
  display1 : Bool
  display2 : Bool
  display3 : Bool
  display4 : Bool
  deriving DecidableEq, Repr

/-- One step of the part (95_what_each_step_holds.md). `t` is the monotonic instant, in milliseconds,
at which the step occurs. A request row is the beginning of the request at the head of the intake
(R162), and a message row is the receipt of the accepted message by its owner (R41): the operands of
both travel in the frame or the cell that carried them. -/
inductive Instr where
  -- start-up and the line
  | powerOn (fastBaud maintenance : Bool) (boot : Boot)
  | startUpStage5 (t : Nat)
  | lineBreak (t : Nat) (boot : Boot)
  | lineBreakEnd (t : Nat)
  | frameReceived (t : Nat) (chars : List Byte)
  | frameGapTimeout (t : Nat)
  | frameTransmitted (t : Nat) (boot : Boot)
  | chargePresented (t : Nat)
  -- requests
  | status (t : Nat)
  | screenStatus (t : Nat)
  | lineupRead (t : Nat)
  | catalogueRead (t : Nat)
  | readEvents (t : Nat)
  | clearEvents (t : Nat)
  | setEventMask (t : Nat)
  | journalRead (t : Nat)
  | journalRewind (t : Nat)
  | journalMode (t : Nat)
  | settingsRead (t : Nat)
  | tune (t : Nat)
  | screenOff (t : Nat)
  | routeHold (t : Nat)
  | routeRelease (t : Nat)
  | relock (t : Nat)
  | quote (t : Nat)
  | buy (t : Nat)
  | cancel (t : Nat)
  | unlock (t : Nat)
  | setPin (t : Nat)
  | restartStreams (t : Nat)
  | settingsWrite (t : Nat)
  | provision (t : Nat)
  | fullReset (t : Nat)
  | unknownRequest (t : Nat)
  -- distribution cells
  | mediaCell (t : Nat) (cell : List Byte)
  | descriptorCell (t : Nat) (cell : List Byte)
  | managementCell (t : Nat) (cell : List Byte)
  | filler (t : Nat) (cell : List Byte)
  -- management messages
  | checkIn (t : Nat)
  | checkOut (t : Nat)
  | setLimit (t : Nat)
  | serviceOpen (t : Nat)
  | serviceClose (t : Nat)
  | pinReset (t : Nat)
  | setCeiling (t : Nat)
  | bar (t : Nat)
  | grantTier (t : Nat)
  | revokeTier (t : Nat)
  | groupKey (t : Nat)
  | revokeGroup (t : Nat)
  | releaseCharges (t : Nat)
  | setTime (t : Nat)
  | lineup (t : Nat)
  | catalogue (t : Nat)
  | keyDelivery (t : Nat)
  | setPolicy (t : Nat)
  | setRates (t : Nat)
  | suspend (t : Nat)
  | resume (t : Nat)
  | lockdown (t : Nat)
  | fullResetMessage (t : Nat)
  | heldMessageTaken (t : Nat)
  | waitingMessageTaken (t : Nat)
  | keptReleaseBegin (t : Nat)
  -- completions of durable writes
  | newFolioWriteComplete (t : Nat)
  | folioUpdateWriteComplete (t : Nat)
  | limitWriteComplete (t : Nat)
  | suspendWriteComplete (t : Nat)
  | resumeWriteComplete (t : Nat)
  | lockdownWriteComplete (t : Nat)
  | checkoutClearingComplete (t : Nat)
  | provisionWriteComplete (t : Nat)
  | resetSerialWriteComplete (t : Nat) (serial : Nat) (boot : Boot)
  | ceilingWriteComplete (t : Nat)
  | barWriteComplete (t : Nat)
  | pinResetWriteComplete (t : Nat)
  | setPinWriteComplete (t : Nat)
  | pinFailureWriteComplete (t : Nat)
  | unlockWriteComplete (t : Nat)
  | lockoutClearWriteComplete (t : Nat)
  | buyWriteComplete (t : Nat)
  | cancelWriteComplete (t : Nat)
  | meterCloseComplete (t : Nat) (service : Nat)
  | meterWriteComplete (t : Nat)
  | viewingWriteComplete (t : Nat)
  | expiryWriteComplete (t : Nat) (title : Nat)
  | policyWriteComplete (t : Nat)
  | ratesWriteComplete (t : Nat)
  | tierWriteComplete (t : Nat)
  | releaseWriteComplete (t : Nat)
  | presentationWriteComplete (t : Nat)
  | accessKeyInstallComplete (t : Nat) (group : Nat)
  | groupRevokeComplete (t : Nat) (group : Nat)
  | settingsWriteComplete (t : Nat)
  -- the clocks and the deadlines
  | tick (t : Nat)
  | purchaseExpiry (t : Nat) (title : Nat)
  | blockAccrual (t : Nat) (service : Nat)
  | previewAllowanceReached (t : Nat) (title : Nat)
  | dayBoundary (t : Nat)
  | frameBoundary (t : Nat)
  | noSignalDeadline (t : Nat) (service : Nat)
  | stalenessDeadline (t : Nat) (service : Nat)
  | noKeyDeadline (t : Nat) (engine : EngineId)
  | warmUpEnd (t : Nat) (engine : EngineId)
  | idleDeadline (t : Nat) (engine : EngineId)
  | noTitleDeadline (t : Nat) (screen : Screen)
  | routeHoldDeadline (t : Nat)
  | presenceProbe (t : Nat) (screen : Screen) (display : Bool)
  | unlockEndInstant (t : Nat) (screen : Option Screen)
  | lockoutDeadline (t : Nat)
  | rejoinExpiry (t : Nat) (service : Nat)
  | maintenanceWindowEnd (t : Nat)
  | frameBegins (t : Nat)
  | badLength (t : Nat) (length : Byte)
  | powerLoss
  deriving DecidableEq, Repr

end Sys2Proof
end

