-- ==== Sys2Proof/Decode.lean ====
section
/-! DEFINITION. The commands the words of the opcode table spell: its rows give no bits, so no word spells
one. -/

namespace Sys2Proof

/-- No row of spec/opcode_table.json gives its command bits. -/
def decodeTableWord (_nbits _w : Nat) : Option Instr := none

end Sys2Proof
end

