-- ==== Sys2Proof/Config.lean ====
section
/-! DEFINITION. The values the manual leaves open, each an opaque constant: no proof can see what it is. -/

namespace Sys2Proof.Config

/-- FREE VALUE (log 4). The order in which things that fall together are taken, where the manual
states no order (R70, R91, R128): the k-th time such an order matters, `runOrder k` names one of the
orders. -/
opaque runOrder : Nat → Nat

/-- FREE VALUE (log 5). The day field of a property time that is UNSET: R185 fixes its seconds field
only. -/
opaque unsetDay : BitVec 16

/-- FREE VALUE (log 6). Which of the 255 values other than 23 is the status value of TABLE_FULL: R183
gives that status no value, and says that value 23 is not sent. -/
opaque tableFullIndex : Fin 255

end Sys2Proof.Config
end

