-- ==== Sys2Proof/Machine/State.lean ====
section
/-! DEFINITION. Everything the manual gives the part to hold, block by block (Overview 3), and its
value right after a start-up. -/

namespace Sys2Proof.Machine

/-! ## The outcomes of a step -/

/-- The part has no fault: no rule stops it, so this type has no member and `exec` never answers
`.fault` (safe). -/
inductive Fault where
  deriving DecidableEq, Repr

/-- Why a command has no meaning. -/
inductive Refusal where
  /-- Raised by `exec` for a row of the table whose meaning is not written yet; no arm raises it now.
  Safe: the machine stops. -/
  | notModelled (mnemonic : String)
  deriving DecidableEq, Repr

/-! ## Small collections -/

/-- One item for each of the four screens. -/
structure Four (α : Type) where
  one : α
  two : α
  three : α
  four : α
  deriving DecidableEq, Repr

/-- One item for each of the three engines. -/
structure Three (α : Type) where
  one : α
  two : α
  three : α
  deriving DecidableEq, Repr

/-! ## Retained items (R175, R176) -/

/-- Property time while it is set (R172): a day number and seconds of day. -/
structure PTime where
  day : Nat
  sec : Nat
  deriving DecidableEq, Repr

/-- R1. -/
inductive RoomState where
  | vacant | occupied | settling
  deriving DecidableEq, Repr

/-- The retained fields of the room record (R1). -/
structure RoomRecord where
  state : RoomState
  folio : Option Nat
  settling : Option Nat
  limit : Nat
  spend : Nat
  count : Nat
  suspended : Bool
  lockdown : Bool
  storeLost : Bool
  roomId : Nat
  group : Nat
  deriving DecidableEq, Repr

/-- The retained lock state (R101). A PIN of four decimal digits is held as the number they spell. -/
structure LockRecord where
  ceiling : Nat
  barred : Bool
  pin : Option Nat
  failures : Nat
  lockouts : Nat
  running : Bool
  deriving DecidableEq, Repr

/-- A purchase record (R119). -/
structure Purchase where
  title : Nat
  folio : Nat
  boughtAt : PTime
  expiresAt : PTime
  net : Nat
  tax : Nat
  total : Nat
  number : Option Nat
  play : Nat
  deriving DecidableEq, Repr

/-- A preview record (R128). -/
structure Preview where
  title : Nat
  used : Nat
  deriving DecidableEq, Repr

/-- Why a meter session is closing (R135). -/
inductive CloseCause where
  | expiry | limit | eviction | checkOut | suspend | startUp
  deriving DecidableEq, Repr

/-- A meter session (R135). `idle` is the state IDLE, otherwise PLAYING; `rejoin` is the rejoin expiry. -/
structure Session where
  service : Nat
  folio : Nat
  openedAt : PTime
  rate : Nat
  viewed : Nat
  chargeable : Nat
  blocks : Nat
  net : Nat
  idle : Bool
  rejoin : Option Nat
  closing : Option CloseCause
  deriving DecidableEq, Repr

/-- A day-spend entry (R143). -/
structure DaySpend where
  service : Nat
  units : Nat
  deriving DecidableEq, Repr

/-- The rating source setting (R46). -/
inductive RatingSource where
  | descriptor | lineupDefault
  deriving DecidableEq, Repr

/-- The policy (R46). -/
structure Policy where
  preview : Nat
  grace : Nat
  window : Nat
  unlockMinutes : Nat
  roomUnlockHours : Nat
  dayStart : Nat
  ceiling : Nat
  source : RatingSource
  deriving DecidableEq, Repr

/-- The rates (R47, R131). -/
structure Rates where
  tax : Nat
  bundle : Nat
  discount : Nat
  deriving DecidableEq, Repr

/-- The power policy (R67). -/
inductive PowerPolicy where
  | auto | always
  deriving DecidableEq, Repr

/-- The four install settings (R170): the probe interval in seconds, the frame rate in frames a second. -/
structure Settings where
  power : PowerPolicy
  probe : Nat
  frameRate : Nat
  highMark : Nat
  deriving DecidableEq, Repr

/-- R146. -/
inductive ChargeKind where
  | purchase | metered | credit
  deriving DecidableEq, Repr

/-- A journal record (R146). A field its kind does not hold is absent. -/
structure ChargeRecord where
  number : Nat
  kind : ChargeKind
  folio : Nat
  title : Option Nat
  service : Option Nat
  net : Nat
  tax : Nat
  total : Nat
  stamp : PTime
  reference : Option Nat
  viewed : Option Nat
  blocks : Option Nat
  presented : Nat
  deriving DecidableEq, Repr

/-- Every retained item of every block (R176). State holds it twice: the values in use, and the values
as last made durable. -/
structure Retained where
  room : RoomRecord
  unitKey : Option Key
  accessKeys : List (Option Key)
  lock : LockRecord
  tiers : BitVec 32
  purchases : List Purchase
  previews : List Preview
  meter : List Session
  daySpend : List DaySpend
  policy : Policy
  rates : Rates
  settings : Settings
  records : List ChargeRecord
  nextNumber : Nat
  reserved : Nat
  resetSerial : Option Nat
  deriving DecidableEq, Repr

/-! ## Management messages (R36, R41 to R49) -/

/-- The address scope of a message (R36). -/
inductive Scope where
  | room | group | all
  deriving DecidableEq, Repr

/-- The kinds of R41, in its order of codes (R182). -/
inductive MsgKind where
  | checkIn | checkOut | setLimit | serviceOpen | serviceClose | pinReset | setCeiling | bar
  | grantTier | revokeTier | groupKey | revokeGroup | releaseCharges | setTime | lineup | catalogue
  | keyDelivery | setPolicy | setRates | suspend | resume | lockdown | fullReset
  deriving DecidableEq, Repr

/-- The parity of a scrambled cell and of a cell key (R50). -/
inductive Parity where
  | even | odd
  deriving DecidableEq, Repr

/-- A lineup service record as its 17 bytes spell it, before R114 judges it (R182). -/
structure RawService where
  service : Nat
  position : Nat
  kind : Nat
  tier : Nat
  scrambled : Nat
  keyGroup : Nat
  rating : Nat
  minutes : Nat
  price : Nat
  cap : Nat
  free : Nat
  deriving DecidableEq, Repr

/-- A catalogue title record as its 8 bytes spell it, before R117 judges it (R182). -/
structure RawTitle where
  title : Nat
  price : Nat
  rating : Nat
  window : Nat
  deriving DecidableEq, Repr

/-- A well-formed body, its values clamped as R44 to R47 give. -/
inductive MsgBody where
  | checkIn (folio limit : Nat) (pin : Option Nat)
  | checkOut (folio : Nat)
  | setLimit (folio limit : Nat)
  | serviceOpen (minutes : Nat)
  | serviceClose
  | pinReset (pin : Option Nat)
  | setCeiling (ceiling : Nat)
  | bar (on : Bool)
  | grantTier (tier : Nat)
  | revokeTier (tier : Nat)
  | groupKey (group : Nat) (wrapped : List Byte) (check : Byte)
  | revokeGroup (group : Nat)
  | releaseCharges (upTo : Nat)
  | setTime (time : PTime)
  | lineup (version index count : Nat) (records : List RawService)
  | catalogue (version index count : Nat) (records : List RawTitle)
  | keyDelivery (group : Nat) (parity : Parity) (epoch : Epoch) (wrapped : List Byte) (check : Byte)
  | setPolicy (policy : Policy)
  | setRates (rates : Rates)
  | suspend
  | resume
  | lockdown (on : Bool)
  | fullReset (serial : Nat)
  deriving DecidableEq, Repr

/-- A message that has passed the tests of R37 and awaits its owner (R41). -/
structure Message where
  scope : Scope
  issue : Nat
  body : MsgBody
  deriving DecidableEq, Repr

/-! ## Cell Front (R20 to R34) -/

/-- A programme record (R24). `noSignalAt` is the no-signal deadline; the timer runs while the
condition is clear (R26). -/
structure Programme where
  service : Nat
  title : Option Nat
  rating : Option Nat
  staleAt : Option Nat
  lastCount : Option Nat
  discontinuities : Nat
  noSignal : Bool
  noSignalAt : Nat
  deriving DecidableEq, Repr

/-- The Cell Front. Its filter set is service 4095 and the services of its programme records (R21, R24). -/
structure CellFront where
  enabled : Bool
  programmes : List Programme
  deriving DecidableEq, Repr

/-! ## Management Decoder (R36 to R43) -/

/-- The lineup or catalogue assembly (R42, R43). -/
structure Assembly where
  version : Option Nat
  parts : Nat
  held : List Nat
  deriving DecidableEq, Repr

/-- One entry of the issue table (R40). -/
structure IssueEntry where
  kind : MsgKind
  scope : Scope
  issue : Nat
  deriving DecidableEq, Repr

/-- The Management Decoder. `handed` are the payloads handed over and not yet judged (R32), `accepted`
the one message that awaits its owner's receipt (R41). -/
structure Decoder where
  handed : List (List Byte)
  accepted : Option Message
  issues : List IssueEntry
  lineup : Assembly
  catalogue : Assembly
  drops : Nat
  deriving DecidableEq, Repr

/-! ## Key Store (R50) -/

/-- A change of a group's access key (R53, R59). -/
inductive AccessOp where
  | install (key : Key)
  | revoke
  deriving DecidableEq, Repr

/-- A cell key with its epoch. -/
structure CellKey where
  key : Key
  epoch : Epoch
  deriving DecidableEq, Repr

/-- The cell key record of one group and parity. -/
structure KeySlot where
  current : Option CellKey
  pending : Option CellKey
  deriving DecidableEq, Repr

/-- What the Key Store holds of one key group beside its access key. -/
structure KeyGroup where
  inFlight : Option AccessOp
  next : Option AccessOp
  even : KeySlot
  odd : KeySlot
  deriving DecidableEq, Repr

/-! ## Engine Pool (R67 to R70) -/

/-- An engine record (R67): each state with the fields it may hold. The no-key condition of an ACTIVE
engine is set exactly when its timer `noKeyAt` does not run (R63). -/
inductive Engine where
  | off
  | warming (target : Option Nat) (deadline : Nat)
  | ready (idleAt : Option Nat)
  | active (service : Nat) (lastParity : Option Parity) (noKeyAt : Option Nat)
  deriving DecidableEq, Repr

/-- An entry of the wait list (R70). -/
structure WaitEntry where
  service : Nat
  outputs : List Screen
  deriving DecidableEq, Repr

structure Pool where
  engines : Three Engine
  wait : List WaitEntry
  deriving DecidableEq, Repr

/-! ## Output Router (R79, R80) -/

inductive Basis where
  | free | tier | purchase | preview | metered
  deriving DecidableEq, Repr

inductive Reason where
  | lock | unpaid | limit | journalFull | suspended | noKey | wait | noSignal | noService | noInfo
  deriving DecidableEq, Repr

inductive OutState where
  | off | absent | tuning
  | playing (basis : Basis)
  | slate (reason : Reason)
  deriving DecidableEq, Repr

/-- A staged route (R79): a service, or NONE. -/
inductive Staged where
  | service (number : Nat)
  | off
  deriving DecidableEq, Repr

/-- An output record (R79). `basis` is the basis of the last verdict run when it ended at case 10 (R83);
`shownService` the route the shown state was decided for; `content` the payload last delivered to the
screen (R80); `probedAt` the instant of the last probe (R95). -/
structure Output where
  route : Option Nat
  staged : Option Staged
  present : Bool
  candidate : Nat
  probedAt : Nat
  decided : OutState
  shown : OutState
  shownService : Option Nat
  contentSeen : Bool
  basis : Option Basis
  noTitleAt : Option Nat
  noInfo : Bool
  engine : Option EngineId
  playSeconds : Nat
  content : List Byte
  deriving DecidableEq, Repr

/-- The Output Router. `hold` is the hold deadline while a hold runs (R92); `dark` holds the outputs at
OFF from stage 1 to stage 7 (R97). -/
structure Router where
  outputs : Four Output
  hold : Option Nat
  dark : Bool
  deriving DecidableEq, Repr

/-! ## Rating Lock (R101) -/

structure Unlock where
  endAt : Nat
  deferred : Bool
  deriving DecidableEq, Repr

/-- A durable write of the Rating Lock's own. -/
inductive LockWrite where
  | ceiling (value : Nat)
  | bar (on : Bool)
  | pinReset (pin : Option Nat)
  | setPin (pin : Nat)
  | failure
  | unlock (room : Bool) (screen : Nat)
  | lockoutClear
  deriving DecidableEq, Repr

/-- The volatile lock state. `clearOwed`: the cleared lockout-running flag waits to be written (R109). -/
structure Lock where
  lockoutAt : Option Nat
  screens : Four (Option Unlock)
  room : Option Unlock
  waiting : List MsgBody
  write : Option LockWrite
  clearOwed : Bool
  deriving DecidableEq, Repr

/-! ## Room Controller (R1, R4) -/

/-- A durable write of the Room Controller's own. -/
inductive RoomWrite where
  | newFolio (folio limit : Nat) (pin : Option Nat) (ceiling : Nat)
  | folioUpdate (limit : Nat) (pin : Option Nat)
  | limit (value : Nat)
  | suspend
  | resume
  | lockdown (on : Bool)
  | clearing (settling : Option Nat)
  deriving DecidableEq, Repr

/-- A write of the Room Controller: in flight once `begun`, before that waiting for the Rating Lock (R102). -/
structure RoomOp where
  write : RoomWrite
  begun : Bool
  deriving DecidableEq, Repr

/-- A CHECK_IN that waits for the check-out it started (R11). -/
structure CheckIn where
  folio : Nat
  limit : Nat
  pin : Option Nat
  deriving DecidableEq, Repr

/-- The volatile room state. `checkOut` is present while a check-out is in progress. -/
structure Room where
  windowEnd : Option Nat
  pendingCharge : Nat
  checkOut : Option (Option CheckIn)
  held : List MsgBody
  write : Option RoomOp
  deriving DecidableEq, Repr

/-- The durable write of a PROVISION (R171). -/
structure Provision where
  roomId : Nat
  group : Nat
  unitKey : Key
  newRoom : Bool
  deriving DecidableEq, Repr

/-! ## Billing Unit (Chapters 8 and 9) -/

/-- What a METERED service charges (R114). -/
structure MeterTerms where
  minutes : Nat
  price : Nat
  cap : Nat
  free : Nat
  deriving DecidableEq, Repr

inductive ServiceKind where
  | free
  | tier (tier : Nat)
  | film
  | metered (terms : MeterTerms)
  deriving DecidableEq, Repr

/-- A lineup record (R114). `keyGroup` is present exactly when the record calls the service scrambled. -/
structure Service where
  number : Nat
  position : Nat
  kind : ServiceKind
  keyGroup : Option Nat
  rating : Nat
  deriving DecidableEq, Repr

/-- A catalogue record (R117). -/
structure Title where
  title : Nat
  price : Nat
  rating : Nat
  window : Nat
  deriving DecidableEq, Repr

/-- The block terms a tick read for a session whose accrual it left to judge (R138). -/
structure Accrual where
  service : Nat
  terms : MeterTerms
  deriving DecidableEq, Repr

/-- The volatile state of the Billing Unit: lineup and catalogue in reading order, the writes of its
retained settings with what waits behind them, and what a tick or a SET_TIME leaves to be taken: the
purchases `expired` (R120), the titles that reached the allowance (R129), the `accruals` (R138). -/
structure Billing where
  lineup : List Service
  catalogue : List Title
  tierWrite : Option (BitVec 32)
  tierNext : Option (BitVec 32)
  policyWrite : Option Policy
  policyNext : Option Policy
  ratesWrite : Option Rates
  ratesNext : Option Rates
  viewingWrite : Bool
  viewingOwed : Bool
  expired : List Purchase
  expiryWrites : List Purchase
  allowanceReached : List Nat
  accruals : List Accrual
  meterOwed : Bool
  suspendCloses : List Nat
  deriving DecidableEq, Repr

/-! ## Charge Journal (R145) and the writes that take turns (R134, R147) -/

/-- What a meter write carries, as it stood when the write began (R137). -/
structure MeterImage where
  meter : List Session
  daySpend : List DaySpend
  reserved : Nat
  deriving DecidableEq, Repr

/-- A presented count made durable: a record's number and its count (R154). -/
abbrev Count := Nat × Nat

/-- A durable write of the Billing Unit or the Charge Journal, in flight or waiting its turn. -/
inductive TurnWrite where
  | buy (purchase : Purchase)
  | cancel (purchase : Purchase) (stamp : PTime)
  | close (service : Nat) (stamp : PTime) (charged : Bool)
  | meter (image : Option MeterImage)
  | release (numbers : List Nat) (counts : List Count) (endsSettling : Bool)
  | presentation (counts : List Count)
  deriving DecidableEq, Repr

/-- The volatile journal state. -/
structure Journal where
  pendingRecord : Nat
  cursor : Nat
  push : Bool
  armed : Bool
  kept : Option Nat
  presentationOwed : Bool
  deriving DecidableEq, Repr

/-! ## Set Port (R158 to R164) -/

/-- The eight event classes, in the order of their bits (R183). -/
inductive EventClass where
  | charge | journalHigh | key | lock | route | property | link | screen
  deriving DecidableEq, Repr

structure EventRecord where
  pending : Bool
  count : Nat
  deriving DecidableEq, Repr

/-- A record for each event class (R164). -/
structure Events where
  charge : EventRecord
  journalHigh : EventRecord
  key : EventRecord
  lock : EventRecord
  route : EventRecord
  property : EventRecord
  link : EventRecord
  screen : EventRecord
  deriving DecidableEq, Repr

/-- A request in the intake (R161). -/
structure Request where
  kind : Byte
  tag : Byte
  body : List Byte
  deriving DecidableEq, Repr

/-- The receiver (R159). `got` is the partial frame: the length byte and all after it. -/
inductive Receiver where
  | hunt
  | frame (got : List Byte)
  | check (got : List Byte) (crc : List Byte)
  deriving DecidableEq, Repr

/-- A frame of the outbound queue (R163). `error` marks a FRAME_ERROR or INTAKE_FULL reply, `resets` the
OK reply to a FULL_RESET (R178). -/
structure OutFrame where
  bytes : List Byte
  error : Bool
  resets : Bool
  deriving DecidableEq, Repr

/-- The transmitter (R163): it sends the oldest frame of the outbound queue, which stays there until it
has been sent, or a pushed frame. -/
inductive Transmitter where
  | idle
  | reply
  | push (bytes : List Byte)
  deriving DecidableEq, Repr

/-- The Set Port. `executing`: the request at the head of the intake has begun. `guestWaits`: the request
at the head waited for a check-out (R8). `provision`, `settings`: their durable writes in flight.
`resetOwed`: a FULL_RESET has been replied (R178). -/
structure Port where
  opened : Bool
  fastBaud : Bool
  maintenance : Bool
  receiver : Receiver
  lastCharAt : Nat
  lineBreak : Bool
  intake : List Request
  executing : Bool
  guestWaits : Bool
  outbound : List OutFrame
  transmitter : Transmitter
  provision : Option Provision
  settings : Option Settings
  resetOwed : Bool
  events : Events
  enabled : BitVec 8
  deriving DecidableEq, Repr

/-! ## Timebase (R172) -/

/-- Monotonic time in milliseconds, property time (absent while UNSET), the instant of the next tick, and
the instant of the next frame boundary in thirds of a millisecond, in which both frame intervals are
whole (R87). `boundaryDue`: a day boundary waits to be reported (R173). -/
structure Timebase where
  now : Nat
  property : Option PTime
  nextTick : Nat
  nextFrame : Nat
  boundaryDue : Bool
  deriving DecidableEq, Repr

/-- Whether the part has power, and whether start-up has reached stage 5 (R178). -/
inductive Power where
  | off | starting | running
  deriving DecidableEq, Repr

/-! ## The whole part -/

/-- Everything the part holds. `cur` are the retained items in use and `store` their durable copies;
`turns` are the writes of the Billing Unit and the Charge Journal in the order they fell due;
`serials` the reset-serial writes in flight (R49); `choices` counts the free orders taken (log 4);
`pending` are the commands that wait, first in first out. -/
structure State where
  power : Power
  time : Timebase
  cur : Retained
  store : Retained
  room : Room
  cells : CellFront
  decoder : Decoder
  keys : List KeyGroup
  pool : Pool
  router : Router
  lock : Lock
  billing : Billing
  turns : List TurnWrite
  journal : Journal
  port : Port
  serials : List Nat
  choices : Nat
  pending : List Instr
  deriving DecidableEq, Repr

/-! ## Values after a store loss and after start-up -/

/-- The retained items after a store loss (R176): R1, R50, R101, R118, R119, R128, R135, R143, R46, R131,
R67, R79, R145, R49. -/
def Retained.lost : Retained where
  room := ⟨.vacant, none, none, 0, 0, 0, false, false, true, 0, 0⟩
  unitKey := none
  accessKeys := List.replicate 16 none
  lock := ⟨4, false, none, 0, 0, false⟩
  tiers := 0
  purchases := []
  previews := []
  meter := []
  daySpend := []
  policy := ⟨180, 5, 24, 60, 8, 4, 4, .descriptor⟩
  rates := ⟨0, 0, 0⟩
  settings := ⟨.auto, 1, 50, 48⟩
  records := []
  nextNumber := 1
  reserved := 0
  resetSerial := none

/-- An event class with nothing raised (R164). -/
def EventRecord.clear : EventRecord := ⟨false, 0⟩

def Events.clear : Events :=
  ⟨.clear, .clear, .clear, .clear, .clear, .clear, .clear, .clear⟩

/-- An output after start-up whose first probe found what `present` says (R79, R95). A run of its verdict
with no route ends at case 1 or case 2 (R81). -/
def Output.initial (present : Bool) : Output where
  route := none
  staged := none
  present := present
  candidate := 0
  probedAt := 0
  decided := if present then .off else .absent
  shown := .off
  shownService := none
  contentSeen := false
  basis := none
  noTitleAt := none
  noInfo := false
  engine := none
  playSeconds := 0
  content := []

def KeyGroup.empty : KeyGroup := ⟨none, none, ⟨none, none⟩, ⟨none, none⟩⟩

def Room.initial : Room := ⟨none, 0, none, [], none⟩
def CellFront.initial : CellFront := ⟨false, []⟩
/-- No version is held, and no part (R42, R43); the part count is held as 0, which is log 66's choice. -/
def Assembly.empty : Assembly := ⟨none, 0, []⟩
def Decoder.initial : Decoder := ⟨[], none, [], .empty, .empty, 0⟩
def Pool.initial : Pool := ⟨⟨.off, .off, .off⟩, []⟩

def Router.initial (boot : Boot) : Router where
  outputs := ⟨.initial boot.display1, .initial boot.display2, .initial boot.display3,
    .initial boot.display4⟩
  hold := none
  dark := true

def Lock.initial : Lock := ⟨none, ⟨none, none, none, none⟩, none, [], none, false⟩

def Billing.initial : Billing where
  lineup := []
  catalogue := []
  tierWrite := none
  tierNext := none
  policyWrite := none
  policyNext := none
  ratesWrite := none
  ratesNext := none
  viewingWrite := false
  viewingOwed := false
  expired := []
  expiryWrites := []
  allowanceReached := []
  accruals := []
  meterOwed := false
  suspendCloses := []

def Journal.initial : Journal := ⟨0, 1, false, true, none, false⟩

/-- The Set Port at stage 1: closed, with its queues and its event state empty (R158, R161, R163, R164). -/
def Port.initial (fastBaud maintenance : Bool) : Port where
  opened := false
  fastBaud := fastBaud
  maintenance := maintenance
  receiver := .hunt
  lastCharAt := 0
  lineBreak := false
  intake := []
  executing := false
  guestWaits := false
  outbound := []
  transmitter := .idle
  provision := none
  settings := none
  resetOwed := false
  events := .clear
  enabled := 0

/-- The part right after a start-up that found its store lost: the values after a store loss (R176), the
start-up values of every volatile item, Cell Front enabled, port open, outputs released (R178).
DESIGN CHOICE (log 2): all four first probes found a display, the baud strap reads 115,200, the
maintenance strap is clear, and the clocks stand at 0. -/
def State.reset : State where
  power := .running
  time := ⟨0, none, 1000, 60, false⟩
  cur := .lost
  store := .lost
  room := .initial
  cells := ⟨true, []⟩
  decoder := .initial
  keys := List.replicate 16 .empty
  pool := .initial
  router := { Router.initial ⟨false, true, true, true, true⟩ with dark := false }
  lock := .initial
  billing := .initial
  turns := []
  journal := .initial
  port :=
    { Port.initial false false with
      opened := true
      events := { Events.clear with property := ⟨true, 1⟩ } }
  serials := []
  choices := 0
  pending := []

end Sys2Proof.Machine
end

