-- ==== Sys2Proof/Machine/Ops.lean ====
section
/-! DEFINITION. The operations every family shares: collections by number, one updater per block, time,
raising an event, durable writes, and the queue of writes that take turns. -/

namespace Sys2Proof.Machine

/-! ## Items by number -/

def Four.get (f : Four α) : Screen → α
  | 0 => f.one
  | 1 => f.two
  | 2 => f.three
  | 3 => f.four

def Four.set (f : Four α) (v : α) : Screen → Four α
  | 0 => { f with one := v }
  | 1 => { f with two := v }
  | 2 => { f with three := v }
  | 3 => { f with four := v }

def Four.map (g : α → β) (f : Four α) : Four β := ⟨g f.one, g f.two, g f.three, g f.four⟩

def Four.toList (f : Four α) : List α := [f.one, f.two, f.three, f.four]

def Three.get (f : Three α) : EngineId → α
  | 0 => f.one
  | 1 => f.two
  | 2 => f.three

def Three.set (f : Three α) (v : α) : EngineId → Three α
  | 0 => { f with one := v }
  | 1 => { f with two := v }
  | 2 => { f with three := v }

def Three.map (g : α → β) (f : Three α) : Three β := ⟨g f.one, g f.two, g f.three⟩

def Three.toList (f : Three α) : List α := [f.one, f.two, f.three]

/-- The screens in ascending number. -/
def allScreens : List Screen := [0, 1, 2, 3]

/-- The engines in ascending number. -/
def allEngines : List EngineId := [0, 1, 2]

/-! ## One updater per block -/

namespace State

def onTime (f : Timebase → Timebase) (s : State) : State := { s with time := f s.time }
def onCur (f : Retained → Retained) (s : State) : State := { s with cur := f s.cur }
def onStore (f : Retained → Retained) (s : State) : State := { s with store := f s.store }
def onRoom (f : Room → Room) (s : State) : State := { s with room := f s.room }
def onCells (f : CellFront → CellFront) (s : State) : State := { s with cells := f s.cells }
def onDecoder (f : Decoder → Decoder) (s : State) : State := { s with decoder := f s.decoder }
def onKeys (f : List KeyGroup → List KeyGroup) (s : State) : State := { s with keys := f s.keys }
def onPool (f : Pool → Pool) (s : State) : State := { s with pool := f s.pool }
def onRouter (f : Router → Router) (s : State) : State := { s with router := f s.router }
def onLock (f : Lock → Lock) (s : State) : State := { s with lock := f s.lock }
def onBilling (f : Billing → Billing) (s : State) : State := { s with billing := f s.billing }
def onTurns (f : List TurnWrite → List TurnWrite) (s : State) : State := { s with turns := f s.turns }
def onJournal (f : Journal → Journal) (s : State) : State := { s with journal := f s.journal }
def onPort (f : Port → Port) (s : State) : State := { s with port := f s.port }
def onSerials (f : List Nat → List Nat) (s : State) : State := { s with serials := f s.serials }
def onChoices (f : Nat → Nat) (s : State) : State := { s with choices := f s.choices }

/-- A durable write that completes: its changes come into use and become durable together (R175). -/
def durably (f : Retained → Retained) (s : State) : State := (s.onCur f).onStore f

def now (s : State) : Nat := s.time.now

def output (s : State) (o : Screen) : Output := s.router.outputs.get o

def onOutput (o : Screen) (f : Output → Output) (s : State) : State :=
  s.onRouter fun r => { r with outputs := r.outputs.set (f (r.outputs.get o)) o }

def onOutputs (f : Output → Output) (s : State) : State :=
  s.onRouter fun r => { r with outputs := r.outputs.map f }

def engine (s : State) (e : EngineId) : Engine := s.pool.engines.get e

def setEngine (e : EngineId) (v : Engine) (s : State) : State :=
  s.onPool fun p => { p with engines := p.engines.set v e }

end State

/-! ## Occurrence and time -/

/-- What `exec` answers. -/
abbrev Out := Host.Outcome State Fault Refusal

/-- Monotonic time has run on to instant `t`; it does not go back (R172). -/
def State.atInstant (t : Nat) (s : State) : State :=
  s.onTime fun c => { c with now := max c.now t }

/-- A step with effect `f` occurs at instant `t`. A part without power takes no step but POWER_ON
(R175, R178; log 1). -/
def occurs (t : Nat) (f : State → State) (s : State) : Out :=
  .next (if s.power = .off then s else f (s.atInstant t))

/-- The instant `deadline` has been reached (Overview 6.2). -/
def reached (deadline : Nat) (s : State) : Bool := decide (deadline ≤ s.now)

/-- An optional deadline is present and reached. -/
def due (deadline : Option Nat) (s : State) : Bool :=
  match deadline with
  | some d => reached d s
  | none => false

/-- Property time as one number of seconds. -/
def PTime.seconds (p : PTime) : Nat := p.day * 86400 + p.sec

def PTime.le (a b : PTime) : Bool := decide (a.seconds ≤ b.seconds)

/-- The last property time there is (R120, R172). -/
def PTime.last : PTime := ⟨65535, 86399⟩

/-- One second on (R172). -/
def PTime.next (p : PTime) : PTime :=
  if p.sec < 86399 then ⟨p.day, p.sec + 1⟩
  else if p.day < 65535 then ⟨p.day + 1, 0⟩
  else p

/-! ## Free orders (log 4) -/

/-- Put `x` at place `k` of a list. -/
def insertAt (x : α) : Nat → List α → List α
  | 0, ys => x :: ys
  | _ + 1, [] => [x]
  | k + 1, y :: ys => y :: insertAt x k ys

/-- The order number `n` of a list; every order of the list has a number. -/
def permute : Nat → List α → List α
  | _, [] => []
  | n, x :: xs => insertAt x (n % (xs.length + 1)) (permute (n / (xs.length + 1)) xs)

/-- `xs` in the order the part takes them: as they stand when their order cannot matter, else in the
next free order. -/
def State.freeOrder (matters : Bool) (xs : List α) (s : State) : List α :=
  if matters then permute (Config.runOrder s.choices) xs else xs

/-- The free order just taken is used up. -/
def State.useOrder (matters : Bool) (s : State) : State :=
  if matters then s.onChoices (· + 1) else s

/-! ## The writes that take turns (R134, R147) -/

/-- The Billing Unit makes the write (R134). -/
def TurnWrite.isBilling : TurnWrite → Bool
  | .release .. => false
  | .presentation _ => false
  | _ => true

/-- The write changes the journal (R147): a BUY, CANCEL or meter close does when it carries a record. -/
def TurnWrite.isJournal : TurnWrite → Bool
  | .buy p => decide (0 < p.total)
  | .cancel p _ => decide (0 < p.total)
  | .close _ _ charged => charged
  | .meter _ => false
  | .release .. => true
  | .presentation _ => true

/-- The write is a BUY or CANCEL (R4). -/
def TurnWrite.isSale : TurnWrite → Bool
  | .buy _ => true
  | .cancel _ _ => true
  | _ => false

def TurnWrite.isMeter : TurnWrite → Bool
  | .meter _ => true
  | _ => false

def TurnWrite.isPresentation : TurnWrite → Bool
  | .presentation _ => true
  | _ => false

/-- A release write that carries the change of R12. -/
def TurnWrite.isSettlingEnd : TurnWrite → Bool
  | .release _ _ ends => ends
  | _ => false

/-- The first write that `p` names and that is in flight: no write before it in the queue is of the same
owner. It is answered with the rest of the queue. -/
def takeBegun (p : TurnWrite → Bool) (billing journal : Bool) :
    List TurnWrite → Option (TurnWrite × List TurnWrite)
  | [] => none
  | w :: ws =>
    if p w && !(w.isBilling && billing) && !(w.isJournal && journal) then some (w, ws)
    else
      match takeBegun p (billing || w.isBilling) (journal || w.isJournal) ws with
      | some (x, rest) => some (x, w :: rest)
      | none => none

/-- The meter write at the front of the Billing Unit's writes begins: it carries the meter table, the day
spend and the reserved count as they now stand (R137). -/
def beginMeterWrite (image : MeterImage) : List TurnWrite → List TurnWrite
  | [] => []
  | .meter none :: ws => .meter (some image) :: ws
  | w :: ws => if w.isBilling then w :: ws else w :: beginMeterWrite image ws

def State.meterImage (s : State) : MeterImage :=
  ⟨s.cur.meter, s.cur.daySpend, s.cur.reserved⟩

def State.turnsAdvance (s : State) : State := s.onTurns (beginMeterWrite s.meterImage)

/-- A write falls due: it takes its turn (R134, R147). -/
def State.fallDue (w : TurnWrite) (s : State) : State :=
  (s.onTurns (· ++ [w])).turnsAdvance

/-- A change that a meter write makes durable (R137). -/
def State.meterChanged (s : State) : State :=
  if s.turns.any TurnWrite.isMeter then s.onBilling fun b => { b with meterOwed := true }
  else s.fallDue (.meter none)

/-- The presented counts of the records held. -/
def counts (records : List ChargeRecord) : List Count := records.map fun r => (r.number, r.presented)

/-- Give the records the counts a write carried. -/
def withCounts (cs : List Count) (records : List ChargeRecord) : List ChargeRecord :=
  records.map fun r =>
    match cs.lookup r.number with
    | some n => { r with presented := n }
    | none => r

/-- A presented count changed (R154). -/
def State.presentedChanged (s : State) : State :=
  if s.turns.any TurnWrite.isPresentation then
    s.onJournal fun j => { j with presentationOwed := true }
  else s.fallDue (.presentation (counts s.cur.records))

/-- A viewing write is begun, or owed while one is in flight (R121). -/
def State.viewingChanged (s : State) : State :=
  s.onBilling fun b =>
    if b.viewingWrite then { b with viewingOwed := true } else { b with viewingWrite := true }

end Sys2Proof.Machine
end

