-- ==== Sys2Proof/Machine/Flags.lean ====
section
/-! DEFINITION. The event flags and the attention line (R164 to R166), the access mode (R17), and the
conditions under which a block is busy (R4, R102). -/

namespace Sys2Proof.Machine

/-! ## Events -/

def Events.get (e : Events) : EventClass → EventRecord
  | .charge => e.charge
  | .journalHigh => e.journalHigh
  | .key => e.key
  | .lock => e.lock
  | .route => e.route
  | .property => e.property
  | .link => e.link
  | .screen => e.screen

def Events.set (e : Events) (v : EventRecord) : EventClass → Events
  | .charge => { e with charge := v }
  | .journalHigh => { e with journalHigh := v }
  | .key => { e with key := v }
  | .lock => { e with lock := v }
  | .route => { e with route := v }
  | .property => { e with property := v }
  | .link => { e with link := v }
  | .screen => { e with screen := v }

/-- The classes in the order of their bits (R183). -/
def EventClass.all : List EventClass :=
  [.charge, .journalHigh, .key, .lock, .route, .property, .link, .screen]

/-- The bit of a class in a class set (R183). -/
def EventClass.bit : EventClass → Nat
  | .charge => 0
  | .journalHigh => 1
  | .key => 2
  | .lock => 3
  | .route => 4
  | .property => 5
  | .link => 6
  | .screen => 7

/-- A raise sets the pending flag and counts, up to 255 (R164). -/
def EventRecord.raised (r : EventRecord) : EventRecord := ⟨true, min (r.count + 1) 255⟩

/-- Raise a class (R164). -/
def State.raise (c : EventClass) (s : State) : State :=
  s.onPort fun p => { p with events := p.events.set (p.events.get c).raised c }

/-- Raise a class n times. -/
def State.raiseTimes (c : EventClass) : Nat → State → State
  | 0, s => s
  | n + 1, s => (s.raise c).raiseTimes c n

/-- Clear every class of a set (R165). -/
def Events.clearSet (set : BitVec 8) (e : Events) : Events :=
  EventClass.all.foldl (fun e c => if set.getLsbD c.bit then e.set .clear c else e) e

/-- The pending flags as a class set. -/
def Events.pendingSet (e : Events) : BitVec 8 :=
  EventClass.all.foldl
    (fun acc c => if (e.get c).pending then acc ||| BitVec.ofNat 8 (2 ^ c.bit) else acc) 0

/-- The attention line is asserted while a class is both pending and enabled (R166). From stage 1 to
stage 6 the enable set is empty, which releases it. -/
def State.attention (s : State) : Bool := decide (s.port.events.pendingSet &&& s.port.enabled ≠ 0)

/-! ## Access mode -/

inductive AccessMode where
  | lockdown | maintenance | normal
  deriving DecidableEq, Repr

/-- R17. -/
def State.mode (s : State) : AccessMode :=
  if s.cur.room.lockdown then .lockdown
  else if s.room.windowEnd.isSome || s.cur.room.roomId == 0 then .maintenance
  else .normal

/-- The request groups of R17: QUERY and VIEW are taken in every mode. -/
inductive Group where
  | everyMode | guest | restart | service
  deriving DecidableEq, Repr

/-- The table of R17. -/
def State.modeTakes (s : State) : Group → Bool
  | .everyMode => true
  | .guest => s.mode != .lockdown
  | .restart => s.mode != .lockdown
  | .service => s.mode == .maintenance

/-! ## Busy blocks -/

/-- A Room Controller write that carries lock state (R102). `pinChanges` says whether a folio update
changes the PIN. -/
def RoomWrite.carriesLock : RoomWrite → Bool
  | .newFolio .. => true
  | .folioUpdate _ pin => pin.isSome
  | .clearing _ => true
  | _ => false

/-- The Rating Lock is busy with a write of its own. -/
def State.ownLockBusy (s : State) : Bool := s.lock.write.isSome

/-- The Rating Lock is busy (R102). -/
def State.lockBusy (s : State) : Bool :=
  s.ownLockBusy ||
  (match s.room.write with
   | some op => op.begun && op.write.carriesLock
   | none => false) ||
  (match s.port.provision with
   | some p => p.newRoom
   | none => false)

/-- The Room Controller is busy (R4, R171). -/
def State.roomBusy (s : State) : Bool :=
  s.room.write.isSome || s.room.checkOut.isSome || s.turns.any TurnWrite.isSale ||
  s.port.provision.isSome || s.turns.any TurnWrite.isSettlingEnd

/-- A journal write is in flight or waiting (R155). -/
def State.journalBusy (s : State) : Bool := s.turns.any TurnWrite.isJournal

/-- The room is occupied in the sense of R82. -/
def State.occupied (s : State) : Bool :=
  s.cur.room.state == .occupied && s.room.checkOut.isNone

end Sys2Proof.Machine
end

