-- ==== Sys2Proof/Machine/Formats.lean ====
section
/-! DEFINITION. The byte formats of the manual: numbers and checks (R180), the distribution cell (R181),
the header of a management message (R182) and the frames of the set port (R183). -/

namespace Sys2Proof.Machine

/-! ## Numbers (R180) -/

/-- The number some bytes spell, least significant byte first. -/
def leNat : List Byte → Nat
  | [] => 0
  | b :: bs => b.toNat + 256 * leNat bs

/-- A number as `width` bytes, least significant byte first. -/
def leBytes : Nat → Nat → List Byte
  | 0, _ => []
  | width + 1, n => BitVec.ofNat 8 n :: leBytes width (n / 256)

/-- The bytes of a field: `len` bytes from `off` on. -/
def fieldBytes (off len : Nat) (bs : List Byte) : List Byte := (bs.drop off).take len

/-- The number in a field. -/
def field (off len : Nat) (bs : List Byte) : Nat := leNat (fieldBytes off len bs)

/-- A key of eight bytes, byte 0 the least significant. -/
def keyOfBytes (bs : List Byte) : Key := BitVec.ofNat 64 (leNat bs)

/-! ## CRC-16 (R180) -/

/-- One bit of the check: polynomial 0x1021, most significant bit first. -/
def crcBit (crc : BitVec 16) : BitVec 16 :=
  if crc.msb then (crc <<< 1) ^^^ 0x1021 else crc <<< 1

def crcBits : Nat → BitVec 16 → BitVec 16
  | 0, crc => crc
  | n + 1, crc => crcBits n (crcBit crc)

def crcByte (crc : BitVec 16) (b : Byte) : BitVec 16 :=
  crcBits 8 (crc ^^^ (b.zeroExtend 16 <<< 8))

/-- The check of some bytes, from the initial value 0xFFFF. -/
def crc16 (bs : List Byte) : BitVec 16 := bs.foldl crcByte 0xFFFF

/-- The check as it travels, least significant byte first. -/
def crcBytes (bs : List Byte) : List Byte := leBytes 2 (crc16 bs).toNat

/-! ## The distribution cell (R19, R181) -/

inductive CellKind where
  | filler | media | descriptor | management
  deriving DecidableEq, Repr

inductive Scramble where
  | clear
  | scrambled (parity : Parity)
  deriving DecidableEq, Repr

def cellSync : Byte := 0xB3

def cellSyncOk (cell : List Byte) : Bool := cell.head? == some cellSync

def cellService (cell : List Byte) : Nat := field 1 2 cell % 4096

def cellKind (cell : List Byte) : Option CellKind :=
  match field 3 1 cell with
  | 0 => some .filler
  | 1 => some .media
  | 2 => some .descriptor
  | 3 => some .management
  | _ => none

def cellScramble (cell : List Byte) : Option Scramble :=
  match field 4 1 cell with
  | 0 => some .clear
  | 2 => some (.scrambled .even)
  | 3 => some (.scrambled .odd)
  | _ => none

def cellCount (cell : List Byte) : Nat := field 5 1 cell % 16

def cellPayload (cell : List Byte) : List Byte := fieldBytes 8 152 cell

/-- A cell of `kind` is well-formed: its sync holds the marker, its kind code is that kind's, and a MEDIA
cell's scramble code is one of the three (R19). -/
def wellFormedCell (kind : CellKind) (cell : List Byte) : Bool :=
  cellSyncOk cell && cellKind cell == some kind && (kind != .media || (cellScramble cell).isSome)

/-- The title id of a DESCRIPTOR payload. -/
def descriptorTitle (payload : List Byte) : Nat := field 0 2 payload

/-- The rating code of a DESCRIPTOR payload. -/
def descriptorRating (payload : List Byte) : Nat := field 2 1 payload

/-! ## The management message header (R36, R182) -/

def msgScope (p : List Byte) : Option Scope :=
  match field 0 1 p with
  | 1 => some .room
  | 2 => some .group
  | 3 => some .all
  | _ => none

def msgAddress (p : List Byte) : Nat := field 1 2 p

def msgKind (p : List Byte) : Option MsgKind :=
  match field 3 1 p with
  | 0x01 => some .checkIn
  | 0x02 => some .checkOut
  | 0x03 => some .setLimit
  | 0x04 => some .serviceOpen
  | 0x05 => some .serviceClose
  | 0x06 => some .pinReset
  | 0x07 => some .setCeiling
  | 0x08 => some .bar
  | 0x09 => some .grantTier
  | 0x0A => some .revokeTier
  | 0x0B => some .groupKey
  | 0x0C => some .revokeGroup
  | 0x0D => some .releaseCharges
  | 0x0E => some .setTime
  | 0x0F => some .lineup
  | 0x10 => some .catalogue
  | 0x11 => some .keyDelivery
  | 0x12 => some .setPolicy
  | 0x13 => some .setRates
  | 0x14 => some .suspend
  | 0x15 => some .resume
  | 0x16 => some .lockdown
  | 0x17 => some .fullReset
  | _ => none

def msgIssue (p : List Byte) : Nat := field 4 2 p

def msgBodyLength (p : List Byte) : Nat := field 6 1 p

def msgBody (p : List Byte) : List Byte := fieldBytes 7 (msgBodyLength p) p

/-- Test 1 of R37: the body leaves room for the check, and the check carried is the one computed. -/
def msgCheckOk (p : List Byte) : Bool :=
  decide (msgBodyLength p ≤ 143) &&
  fieldBytes (7 + msgBodyLength p) 2 p == crcBytes (p.take (7 + msgBodyLength p))

/-! ## Frames of the set port (R183) -/

def frameSync : Byte := 0xC5

/-- A frame the part sends. -/
def frameBytes (kind tag : Byte) (body : List Byte) : List Byte :=
  let covered := BitVec.ofNat 8 (body.length + 2) :: kind :: tag :: body
  frameSync :: (covered ++ crcBytes covered)

/-- The kind of the reply to a request of kind `k`. -/
def replyKind (k : Byte) : Byte := if k < 0x80 then k + 0x80 else k

/-- The status codes of R183. -/
inductive Status where
  | ok | empty | frameError | intakeFull | unknownRequest | badArgument | mode | journalPending
  | notOccupied | timeUnset | notFilm | titleChanged | noTitle | alreadyOwned | locked | barred
  | limit | journalFull | notOwned | cancelLate | noPin | badPin | lockedOut | tableFull
  deriving DecidableEq, Repr

/-- The status value of TABLE_FULL, which R183 leaves open but for 23 (log 6). -/
def tableFullCode : Nat :=
  if Config.tableFullIndex.val < 23 then Config.tableFullIndex.val else Config.tableFullIndex.val + 1

/-- The status values (R183). -/
def Status.code : Status → Nat
  | .ok => 0
  | .empty => 1
  | .frameError => 2
  | .intakeFull => 3
  | .unknownRequest => 4
  | .badArgument => 5
  | .mode => 6
  | .journalPending => 7
  | .notOccupied => 8
  | .timeUnset => 9
  | .notFilm => 10
  | .titleChanged => 11
  | .noTitle => 12
  | .alreadyOwned => 13
  | .locked => 14
  | .barred => 15
  | .limit => 16
  | .journalFull => 17
  | .notOwned => 18
  | .cancelLate => 19
  | .noPin => 20
  | .badPin => 21
  | .lockedOut => 22
  | .tableFull => tableFullCode

end Sys2Proof.Machine
end

