-- ==== Sys2Proof/Machine/Operands.lean ====
section
/-! DEFINITION. The operands a message body and a request body carry, with the ranges, clamps and
malformed forms of R42 to R49, R162 and R182 to R183. -/

namespace Sys2Proof.Machine

/-! ## Fields shared by messages and requests -/

/-- Clamp a number into a range. -/
def clamp (lo hi n : Nat) : Nat := max lo (min hi n)

/-- The value of a decimal digit character (R180). -/
def digit (b : Byte) : Option Nat :=
  if 0x30 ≤ b.toNat ∧ b.toNat ≤ 0x39 then some (b.toNat - 0x30) else none

/-- The PIN four characters spell, when all are decimal digits (R5, R101). -/
def pinOfBytes : List Byte → Option Nat
  | [a, b, c, d] =>
    match digit a, digit b, digit c, digit d with
    | some a, some b, some c, some d => some (((a * 10 + b) * 10 + c) * 10 + d)
    | _, _, _, _ => none
  | _ => none

/-- A yes/no, on/off or presence byte: 0 or 1, nothing else. -/
def boolOfNat : Nat → Option Bool
  | 0 => some false
  | 1 => some true
  | _ => none

/-- The output of a screen number 1..4. -/
def screenOfNat : Nat → Option Screen
  | 1 => some 0
  | 2 => some 1
  | 3 => some 2
  | 4 => some 3
  | _ => none

/-- The number of a screen. -/
def screenNumber (o : Screen) : Nat := o.val + 1

/-- The most an amount of the room record may be (R1). -/
def maxAmount : Nat := 9999999

/-! ## Records of the lineup and the catalogue (R182) -/

def rawService (bs : List Byte) : RawService where
  service := field 0 2 bs
  position := field 2 2 bs
  kind := field 4 1 bs
  tier := field 5 1 bs
  scrambled := field 6 1 bs
  keyGroup := field 7 1 bs
  rating := field 8 1 bs
  minutes := field 9 1 bs
  price := field 10 2 bs
  cap := field 12 3 bs
  free := field 15 2 bs

def rawTitle (bs : List Byte) : RawTitle where
  title := field 0 2 bs
  price := field 2 4 bs
  rating := field 6 1 bs
  window := field 7 1 bs

/-- `count` records of `size` bytes each. -/
def rawRecords (size : Nat) (record : List Byte → α) : Nat → List Byte → List α
  | 0, _ => []
  | count + 1, bs => record (bs.take size) :: rawRecords size record count (bs.drop size)

/-! ## Message bodies (R42 to R49) -/

def parityOfNat : Nat → Option Parity
  | 0 => some .even
  | 1 => some .odd
  | _ => none

def sourceOfNat : Nat → Option RatingSource
  | 0 => some .descriptor
  | 1 => some .lineupDefault
  | _ => none

/-- A PIN field with its presence byte: a PIN with a character that is no digit is taken as absent (R44). -/
def optionalPin (present : Nat) (chars : List Byte) : Option (Option Nat) :=
  match boolOfNat present with
  | some true => some (pinOfBytes chars)
  | some false => some none
  | none => none

/-- R46. -/
def policyOfBody (b : List Byte) : Option Policy :=
  match sourceOfNat (field 8 1 b) with
  | some source => some
    { preview := clamp 0 600 (field 0 2 b)
      grace := clamp 0 10 (field 2 1 b)
      window := clamp 1 48 (field 3 1 b)
      unlockMinutes := clamp 15 240 (field 4 1 b)
      roomUnlockHours := clamp 1 24 (field 5 1 b)
      dayStart := clamp 0 23 (field 6 1 b)
      ceiling := clamp 0 5 (field 7 1 b)
      source := source }
  | none => none

/-- R47. -/
def ratesOfBody (b : List Byte) : Rates where
  tax := min 2500 (field 0 2 b)
  bundle := min 9 (field 2 1 b)
  discount := min 50 (field 3 1 b)

/-- The body length a kind requires (R182); a LINEUP or CATALOGUE gives its own by its record count. -/
def bodyLength (b : List Byte) : MsgKind → Nat
  | .checkIn => 13
  | .checkOut => 4
  | .setLimit => 8
  | .serviceOpen => 1
  | .serviceClose => 0
  | .pinReset => 5
  | .setCeiling => 1
  | .bar => 1
  | .grantTier => 1
  | .revokeTier => 1
  | .groupKey => 10
  | .revokeGroup => 1
  | .releaseCharges => 4
  | .setTime => 6
  | .lineup => 4 + 17 * field 3 1 b
  | .catalogue => 4 + 8 * field 3 1 b
  | .keyDelivery => 12
  | .setPolicy => 9
  | .setRates => 4
  | .suspend => 0
  | .resume => 0
  | .lockdown => 1
  | .fullReset => 2

/-- The fields of a body of the right length (R42 to R49); none when a field makes it malformed. -/
def bodyFields (b : List Byte) : MsgKind → Option MsgBody
  | .checkIn =>
    (optionalPin (field 8 1 b) (fieldBytes 9 4 b)).map
      (.checkIn (field 0 4 b) (min maxAmount (field 4 4 b)))
  | .checkOut => some (.checkOut (field 0 4 b))
  | .setLimit => some (.setLimit (field 0 4 b) (min maxAmount (field 4 4 b)))
  | .serviceOpen => some (.serviceOpen (clamp 1 240 (field 0 1 b)))
  | .serviceClose => some .serviceClose
  | .pinReset => (optionalPin (field 0 1 b) (fieldBytes 1 4 b)).map .pinReset
  | .setCeiling => some (.setCeiling (min 5 (field 0 1 b)))
  | .bar => (boolOfNat (field 0 1 b)).map .bar
  | .grantTier => if field 0 1 b ≤ 31 then some (.grantTier (field 0 1 b)) else none
  | .revokeTier => if field 0 1 b ≤ 31 then some (.revokeTier (field 0 1 b)) else none
  | .groupKey =>
    if field 0 1 b ≤ 15 then
      some (.groupKey (field 0 1 b) (fieldBytes 1 8 b) (BitVec.ofNat 8 (field 9 1 b)))
    else none
  | .revokeGroup => if field 0 1 b ≤ 15 then some (.revokeGroup (field 0 1 b)) else none
  | .releaseCharges => some (.releaseCharges (field 0 4 b))
  | .setTime => if field 2 4 b ≤ 86399 then some (.setTime ⟨field 0 2 b, field 2 4 b⟩) else none
  | .lineup =>
    if 1 ≤ field 2 1 b ∧ field 2 1 b ≤ 12 ∧ field 1 1 b < field 2 1 b ∧ field 3 1 b ≤ 8 then
      some (.lineup (field 0 1 b) (field 1 1 b) (field 2 1 b)
        (rawRecords 17 rawService (field 3 1 b) (b.drop 4)))
    else none
  | .catalogue =>
    if 1 ≤ field 2 1 b ∧ field 2 1 b ≤ 16 ∧ field 1 1 b < field 2 1 b ∧ field 3 1 b ≤ 4 then
      some (.catalogue (field 0 1 b) (field 1 1 b) (field 2 1 b)
        (rawRecords 8 rawTitle (field 3 1 b) (b.drop 4)))
    else none
  | .keyDelivery =>
    match parityOfNat (field 1 1 b) with
    | some parity =>
      if field 0 1 b ≤ 15 then
        some (.keyDelivery (field 0 1 b) parity (BitVec.ofNat 8 (field 2 1 b)) (fieldBytes 3 8 b)
          (BitVec.ofNat 8 (field 11 1 b)))
      else none
    | none => none
  | .setPolicy => (policyOfBody b).map .setPolicy
  | .setRates => some (.setRates (ratesOfBody b))
  | .suspend => some .suspend
  | .resume => some .resume
  | .lockdown => (boolOfNat (field 0 1 b)).map .lockdown
  | .fullReset => if field 0 2 b = 0 then none else some (.fullReset (field 0 2 b))

/-- Test 5 of R37. -/
def parseBody (kind : MsgKind) (b : List Byte) : Option MsgBody :=
  if b.length = bodyLength b kind then bodyFields b kind else none

/-- The kind of a body. -/
def MsgBody.kind : MsgBody → MsgKind
  | .checkIn .. => .checkIn
  | .checkOut _ => .checkOut
  | .setLimit .. => .setLimit
  | .serviceOpen _ => .serviceOpen
  | .serviceClose => .serviceClose
  | .pinReset _ => .pinReset
  | .setCeiling _ => .setCeiling
  | .bar _ => .bar
  | .grantTier _ => .grantTier
  | .revokeTier _ => .revokeTier
  | .groupKey .. => .groupKey
  | .revokeGroup _ => .revokeGroup
  | .releaseCharges _ => .releaseCharges
  | .setTime _ => .setTime
  | .lineup .. => .lineup
  | .catalogue .. => .catalogue
  | .keyDelivery .. => .keyDelivery
  | .setPolicy _ => .setPolicy
  | .setRates _ => .setRates
  | .suspend => .suspend
  | .resume => .resume
  | .lockdown _ => .lockdown
  | .fullReset _ => .fullReset

/-- The scopes a kind allows (R41). -/
def MsgKind.allows : MsgKind → Scope → Bool
  | .setTime, sc | .lineup, sc | .catalogue, sc | .keyDelivery, sc => sc != .room
  | .setPolicy, _ | .setRates, _ | .suspend, _ | .resume, _ | .lockdown, _ | .fullReset, _ => true
  | _, sc => sc == .room

/-- The kind is under the issue table (R40). -/
def MsgKind.numbered : MsgKind → Bool
  | .lineup => false
  | .catalogue => false
  | .keyDelivery => false
  | _ => true

/-! ## Request bodies (R183) -/

/-- The body length of each request kind; a SETTINGS_WRITE gives its own by its item count. -/
def requestLength (b : List Byte) : Nat → Nat
  | 0x01 => 2
  | 0x03 => 2
  | 0x04 => 2
  | 0x06 => 2
  | 0x07 => 2
  | 0x0A => 1
  | 0x0C => 4
  | 0x0D => 1
  | 0x10 => 2
  | 0x11 => 3
  | 0x12 => 3
  | 0x13 => 2
  | 0x14 => 6
  | 0x15 => 10
  | 0x17 => 1 + 3 * field 0 1 b
  | 0x18 => 11
  | _ => 0

/-- A class set: two bytes, of which the upper marks no class (R165, R183). -/
def classSet (b : List Byte) : Option (BitVec 8) :=
  if field 1 1 b = 0 then some (BitVec.ofNat 8 (field 0 1 b)) else none

/-- The scope of an UNLOCK or RELOCK: none for a malformed one, `some none` for ROOM. -/
def scopeOf (code screen : Nat) : Option (Option Screen) :=
  match code with
  | 0 => (screenOfNat screen).map some
  | 1 => some none
  | _ => none

/-- The target of a TUNE. -/
inductive Target where
  | position (number : Nat)
  | service (number : Nat)
  deriving DecidableEq, Repr

def targetOf (code number : Nat) : Option Target :=
  match code with
  | 0 => some (.position number)
  | 1 => some (.service number)
  | _ => none

/-- One item of a SETTINGS_WRITE applied to the settings (R170). -/
def settingItem (code value : Nat) (s : Settings) : Option Settings :=
  match code with
  | 0 =>
    match value with
    | 0 => some { s with power := .auto }
    | 1 => some { s with power := .always }
    | _ => none
  | 1 => some { s with probe := if value ≤ 2 then 1 else 4 }
  | 2 => some { s with frameRate := if value ≤ 55 then 50 else 60 }
  | 3 => some { s with highMark := clamp 1 63 value }
  | _ => none

/-- The settings after some items, none when an item is refused. -/
def settingItems : Nat → List Byte → Settings → Option Settings
  | 0, _, s => some s
  | n + 1, b, s =>
    match settingItem (field 0 1 b) (field 1 2 b) s with
    | some s' => settingItems n (b.drop 3) s'
    | none => none

/-- The setting codes of some items. -/
def settingCodes : Nat → List Byte → List Nat
  | 0, _ => []
  | n + 1, b => field 0 1 b :: settingCodes n (b.drop 3)

/-- R170: the settings a SETTINGS_WRITE body asks for, none where it is BAD_ARGUMENT. -/
def settingsOfBody (b : List Byte) (s : Settings) : Option Settings :=
  if 1 ≤ field 0 1 b ∧ field 0 1 b ≤ 4 ∧ (settingCodes (field 0 1 b) (b.drop 1)).Nodup then
    settingItems (field 0 1 b) (b.drop 1) s
  else none

end Sys2Proof.Machine
end

