-- ==== Sys2Proof/Machine/Services.lean ====
section
/-! DEFINITION. What is known of a service: its lineup record, its programme record, its effective rating
and whether it is locked (R21, R24, R31, R99, R104); and the filter set (R21, R22). -/

namespace Sys2Proof.Machine

/-- The lineup record of a service (R115). -/
def State.service (s : State) (n : Nat) : Option Service :=
  s.billing.lineup.find? (·.number == n)

/-- The programme record of a service (R24). -/
def State.programme (s : State) (n : Nat) : Option Programme :=
  s.cells.programmes.find? (·.service == n)

/-- The title a service is known to play. -/
def State.titleOf (s : State) (n : Nat) : Option Nat := (s.programme n).bind (·.title)

/-- The fresh descriptor rating of a service. -/
def State.descriptorRatingOf (s : State) (n : Nat) : Option Nat := (s.programme n).bind (·.rating)

/-- The catalogue record of a title (R117). -/
def State.titleRecord (s : State) (t : Nat) : Option Title :=
  s.billing.catalogue.find? (·.title == t)

/-- The base rating of a service with a lineup record (R99). -/
def State.baseRating (s : State) (r : Service) : Nat :=
  match s.cur.policy.source with
  | .descriptor => (s.descriptorRatingOf r.number).getD r.rating
  | .lineupDefault => r.rating

/-- The effective rating of a service (R99). -/
def State.effectiveRating (s : State) (n : Nat) : Option Nat :=
  match s.service n with
  | none => none
  | some r =>
    match (s.titleOf n).bind s.titleRecord with
    | some t => some (max (s.baseRating r) t.rating)
    | none => some (s.baseRating r)

/-- The content of a service is above the ceiling. -/
def State.aboveCeiling (s : State) (n : Nat) : Bool :=
  match s.effectiveRating n with
  | some e => decide (s.cur.lock.ceiling < e)
  | none => false

/-- An unlock in force covers an output (R101). -/
def State.covered (s : State) (o : Screen) : Bool :=
  s.lock.room.isSome || (s.lock.screens.get o).isSome

/-- A service is locked for an output (R104). -/
def State.locked (s : State) (n : Nat) (o : Screen) : Bool :=
  match s.effectiveRating n with
  | some e =>
    decide (s.cur.lock.ceiling < e) && (!s.covered o || (e == 5 && s.cur.lock.barred))
  | none => false

/-- A list with each item once. -/
def distinct : List Nat → List Nat
  | [] => []
  | x :: xs => x :: (distinct xs).filter (· != x)

/-- The in-use services: those a present output routes to (R21). -/
def State.usedServices (s : State) : List Nat :=
  distinct (s.router.outputs.toList.filterMap fun x => if x.present then x.route else none)

/-- The filter set (R21). -/
def State.filterSet (s : State) : List Nat := 4095 :: s.cells.programmes.map (·.service)

/-- An empty programme record (R24). -/
def Programme.empty (service now : Nat) : Programme :=
  ⟨service, none, none, none, none, 0, false, now + 2000⟩

/-- Recompute the filter set: a service that left loses its record, one that entered gets an empty one
(R22). -/
def State.refilter (s : State) : State :=
  let used := s.usedServices
  let kept := s.cells.programmes.filter fun p => used.contains p.service
  let entered := used.filter fun n => !(s.cells.programmes.any fun p => p.service == n)
  s.onCells fun c =>
    { c with programmes := kept ++ entered.map fun n => Programme.empty n s.now }

/-- Change the programme record of a service. -/
def State.onProgramme (n : Nat) (f : Programme → Programme) (s : State) : State :=
  s.onCells fun c =>
    { c with programmes := c.programmes.map fun p => if p.service == n then f p else p }

/-- The outputs routed to a service. -/
def State.routedTo (s : State) (n : Nat) : List Screen :=
  allScreens.filter fun o => (s.output o).route == some n

end Sys2Proof.Machine
end

