-- ==== Sys2Proof/Machine/Charges.lean ====
section
/-! DEFINITION. Charge arithmetic (R131 to R133), the journal's capacity and its appends (R147 to R150),
meter sessions (R135 to R141) and day spend (R143). -/

namespace Sys2Proof.Machine

/-! ## Arithmetic -/

/-- The tax of an amount at a rate in basis points, half a unit rounded up (R131). -/
def taxOf (amount rate : Nat) : Nat := (amount * rate + 5000) / 10000

/-- The net of a purchase (R132). -/
def purchaseNet (price count : Nat) (r : Rates) : Nat :=
  if r.bundle = 0 ∨ count < r.bundle then price else (price * (100 - r.discount) + 50) / 100

def purchaseTax (price count : Nat) (r : Rates) : Nat := taxOf (purchaseNet price count r) r.tax

def purchaseTotal (price count : Nat) (r : Rates) : Nat :=
  purchaseNet price count r + purchaseTax price count r

/-- What a session contributes to A: its net and the tax of it at its latched rate (R133). -/
def Session.contribution (x : Session) : Nat := x.net + taxOf x.net x.rate

/-- A (R13, R133). -/
def accruedTotal (meter : List Session) : Nat := (meter.map Session.contribution).sum

/-- The committed amount, which is the spend floor (R13, R133). -/
def State.committed (s : State) : Nat :=
  s.cur.room.spend + s.room.pendingCharge + accruedTotal s.cur.meter

/-- The limit test of an amount (R133). -/
def State.withinLimit (s : State) (amount : Nat) : Bool :=
  decide (s.committed + amount ≤ s.cur.room.limit)

/-! ## Capacity of the journal -/

/-- The occupancy (R148). -/
def State.occupancy (s : State) : Nat := s.cur.records.length + s.cur.reserved

/-- The most a next number may be (R147). -/
def numberLimit : Nat := 4294967296

/-- The free slots (R148). -/
def State.freeSlots (s : State) : Nat :=
  min (64 - s.cur.records.length - s.cur.reserved - s.journal.pendingRecord)
    (numberLimit - s.cur.nextNumber - s.cur.reserved - s.journal.pendingRecord)

/-- The occupancy has risen (R149). -/
def State.occupancyRose (s : State) : State :=
  if s.journal.armed && decide (s.cur.settings.highMark ≤ s.occupancy) then
    (s.raise .journalHigh).onJournal fun j => { j with armed := false }
  else s

/-- The occupancy has fallen (R149). -/
def State.occupancyFell (s : State) : State :=
  if decide (s.occupancy < s.cur.settings.highMark) then
    s.onJournal fun j => { j with armed := true }
  else s

/-- The journal holds a record of a folio (R146). -/
def State.holdsFolio (s : State) (folio : Nat) : Bool := s.cur.records.any (·.folio == folio)

/-- A record joins the tail of the journal under the next number (R147). -/
def Retained.append (r : ChargeRecord) (x : Retained) : Retained :=
  { x with records := x.records ++ [{ r with number := x.nextNumber }], nextNumber := x.nextNumber + 1 }

/-- A record is appended, in use and durably, and CHARGE is raised (R147). -/
def State.appendRecord (r : ChargeRecord) (s : State) : State :=
  (s.durably (Retained.append r)).raise .charge

/-! ## The cursor (R150) -/

/-- The record at the cursor. -/
def State.recordAtCursor (s : State) : Option ChargeRecord :=
  s.cur.records.find? fun r => decide (s.journal.cursor ≤ r.number)

/-- The presented count of a record rises by one, up to 255 (R146). -/
def presentIn (number : Nat) (records : List ChargeRecord) : List ChargeRecord :=
  records.map fun r =>
    if r.number == number then { r with presented := min (r.presented + 1) 255 } else r

/-- Present a record (R151, R154). -/
def State.present (r : ChargeRecord) (s : State) : State :=
  let s := s.onCur fun x => { x with records := presentIn r.number x.records }
  let s := s.onJournal fun j => { j with cursor := r.number + 1 }
  s.presentedChanged

/-! ## Meter sessions -/

def State.session (s : State) (n : Nat) : Option Session :=
  s.cur.meter.find? fun x => x.service == n

def Retained.onSession (n : Nat) (f : Session → Session) (r : Retained) : Retained :=
  { r with meter := r.meter.map fun x => if x.service == n then f x else x }

/-- The terms of a METERED lineup record. -/
def State.meterTerms (s : State) (n : Nat) : Option MeterTerms :=
  match s.service n with
  | some r =>
    match r.kind with
    | .metered t => some t
    | _ => none
  | none => none

/-- What a service has charged in the current property day (R143). -/
def State.daySpendOf (s : State) (n : Nat) : Nat :=
  match s.cur.daySpend.find? fun d => d.service == n with
  | some d => d.units
  | none => 0

/-- The net of a service's next block (R136, R138). -/
def blockNet (t : MeterTerms) (spent : Nat) : Nat :=
  if t.cap = 0 then t.price else min t.price (t.cap - spent)

/-- A session closes, with the cause that came first (R135, R141). -/
def Session.close (cause : CloseCause) (x : Session) : Session :=
  { x with closing := x.closing.or (some cause) }

/-- A close begins (R141): the session is marked and its write falls due. A session that is closing
already is not closed again (R8). -/
def State.beginClose (n : Nat) (cause : CloseCause) (s : State) : State :=
  match s.session n with
  | some x =>
    if x.closing.isSome then s
    else
      let s := s.onCur (Retained.onSession n (.close cause))
      let s := s.onBilling fun b => { b with accruals := b.accruals.filter (·.service != n) }
      s.fallDue (.close n (s.time.property.getD x.openedAt) (decide (0 < x.net)))
  | none => s

/-- Begin the close of the oldest session that `p` names and that is not closing. -/
def State.closeOldest (cause : CloseCause) (p : Session → Bool) (s : State) : State :=
  match s.cur.meter.find? fun x => p x && x.closing.isNone with
  | some x => s.beginClose x.service cause
  | none => s

/-- A session is closing with a cause. -/
def State.closingWith (s : State) (cause : CloseCause) : Bool :=
  s.cur.meter.any fun x => x.closing == some cause

/-- The answer of the access stage of a verdict (R82). -/
inductive Access where
  | pass (basis : Basis)
  | refuse (reason : Reason)
  deriving DecidableEq, Repr

/-- Step 7 of R136: the session opens with its reservation, as property time and the rate now stand. -/
def State.openSession (n : Nat) (time : PTime) (s : State) : State :=
  let x : Session :=
    { service := n
      folio := s.cur.room.folio.getD 0
      openedAt := time
      rate := s.cur.rates.tax
      viewed := 0
      chargeable := 0
      blocks := 0
      net := 0
      idle := true
      rejoin := some (s.now + 120000)
      closing := none }
  let s := s.onCur fun r => { r with meter := r.meter ++ [x], reserved := r.reserved + 1 }
  s.occupancyRose.meterChanged

/-- The first block and its tax fit the limit (R133, step 6 of R136). -/
def State.openingFits (s : State) (n : Nat) (t : MeterTerms) : Bool :=
  let net := blockNet t (s.daySpendOf n)
  s.withinLimit (net + taxOf net s.cur.rates.tax)

/-- The steps of R136 for a METERED service in an occupied room with property time set. -/
def State.askMeter (n : Nat) (t : MeterTerms) (time : PTime) (s : State) : State × Access :=
  match s.session n with
  | some x =>
    match x.closing with
    | none => (s, .pass .metered)
    | some .limit => (s, .refuse .limit)
    | some _ => (s, .refuse .journalFull)
  | none =>
    if 4 ≤ s.cur.meter.length then
      if s.closingWith .eviction then (s, .refuse .journalFull)
      else (s.closeOldest .eviction (·.idle), .refuse .journalFull)
    else if s.freeSlots = 0 then (s, .refuse .journalFull)
    else if s.openingFits n t then (s.openSession n time, .pass .metered)
    else (s, .refuse .limit)

/-! ## Day spend (R143) -/

/-- The entry to remove from a full table: the oldest whose service has no METERED record and no open
session, else the oldest whose service has no METERED record, else the oldest (log 37). -/
def State.dayEviction (s : State) : Option Nat :=
  let unmetered (d : DaySpend) : Bool := (s.meterTerms d.service).isNone
  match s.cur.daySpend.find? fun d => unmetered d && (s.session d.service).isNone with
  | some d => some d.service
  | none => ((s.cur.daySpend.find? unmetered).or s.cur.daySpend.head?).map (·.service)

/-- A service charges `units` more in the day. -/
def State.addDaySpend (n units : Nat) (s : State) : State :=
  if units = 0 then s
  else if s.cur.daySpend.any fun d => d.service == n then
    s.onCur fun r =>
      { r with daySpend := r.daySpend.map fun d =>
          if d.service == n then { d with units := d.units + units } else d }
  else if s.cur.daySpend.length < 8 then
    s.onCur fun r => { r with daySpend := r.daySpend ++ [⟨n, units⟩] }
  else
    s.onCur fun r =>
      { r with daySpend := r.daySpend.filter (fun d => s.dayEviction != some d.service) ++ [⟨n, units⟩] }

/-! ## Purchases and previews -/

/-- An ACTIVE purchase of a title (R119). -/
def State.purchaseOf (s : State) (t : Nat) : Option Purchase :=
  s.cur.purchases.find? fun p => p.title == t

/-- The preview of a title is exhausted (R129). -/
def State.exhausted (s : State) (t : Nat) : Bool :=
  match s.cur.previews.find? fun p => p.title == t with
  | some p => decide (s.cur.policy.preview ≤ p.used)
  | none => s.cur.policy.preview == 0

/-- The expires-at of a purchase made at `at` with a window of some hours (R120). -/
def expiryOf (bought : PTime) (hours : Nat) : PTime :=
  let sum := bought.sec + hours * 3600
  let day := bought.day + sum / 86400
  if 65535 < day then .last else ⟨day, sum % 86400⟩

/-- Two records are of the same purchase. -/
def Purchase.same (p q : Purchase) : Bool :=
  p.title == q.title && p.boughtAt == q.boughtAt && p.number == q.number

/-- A CANCEL write of a title's purchase is in flight (R120). -/
def State.cancelling (s : State) (t : Nat) : Bool :=
  s.turns.any fun w =>
    match w with
    | .cancel p _ => p.title == t
    | _ => false

/-- The purchases whose expires-at property time has reached (R120). -/
def State.expiredNow (s : State) : List Purchase :=
  match s.time.property with
  | some time => s.cur.purchases.filter fun p => p.expiresAt.le time && !s.cancelling p.title
  | none => []

/-- Expiry is judged, at a tick or a SET_TIME (R120). -/
def State.judgeExpiries (s : State) : State :=
  s.onBilling fun b =>
    { b with expired := b.expired ++ s.expiredNow.filter fun p => !(b.expired.any (·.same p)) }

/-- The window hours of a title (R117, R120). -/
def State.windowOf (s : State) (t : Title) : Nat :=
  if t.window = 0 then s.cur.policy.window else t.window

/-- Purchases are ordered by purchased-at, oldest first (R119); of two with one purchased-at the one bought later
stands later (log 53). -/
def insertPurchase (p : Purchase) : List Purchase → List Purchase
  | [] => [p]
  | q :: qs => if q.boughtAt.le p.boughtAt then q :: insertPurchase p qs else p :: q :: qs

end Sys2Proof.Machine
end

