-- ==== Sys2Proof/Machine/Keys.lean ====
section
/-! DEFINITION. The Key Store: unwrapping (R52), the access operations (R53, R59), cell key deliveries
(R54 to R58), and the keystream (R61). -/

namespace Sys2Proof.Machine

def State.keyGroup (s : State) (g : Nat) : KeyGroup := s.keys.getD g .empty

def State.onKeyGroup (g : Nat) (f : KeyGroup → KeyGroup) (s : State) : State :=
  s.onKeys fun ks => ks.set g (f (ks.getD g .empty))

def KeyGroup.slot (k : KeyGroup) : Parity → KeySlot
  | .even => k.even
  | .odd => k.odd

def KeyGroup.setSlot (k : KeyGroup) (v : KeySlot) : Parity → KeyGroup
  | .even => { k with even := v }
  | .odd => { k with odd := v }

def State.accessKey (s : State) (g : Nat) : Option Key := s.cur.accessKeys.getD g none

/-! ## Unwrapping (R52) -/

/-- The bytes of a key, byte 0 first. -/
def keyBytes (k : Key) : List Byte := leBytes 8 k.toNat

/-- Each wrapped byte combined with the wrapping key's byte in the same position. -/
def unwrap (wrapping : Key) (wrapped : List Byte) : List Byte :=
  (keyBytes wrapping).zipWith (· ^^^ ·) wrapped

/-- The unwrapped bytes add up to the check byte, modulo 256. -/
def checkByteOk (bytes : List Byte) (check : Byte) : Bool :=
  bytes.foldl (· + ·) 0 == check

/-! ## Parities in use and promotion (R55, R57) -/

/-- The key group a service's lineup record gives. -/
def State.groupOf (s : State) (n : Nat) : Option Nat := (s.service n).bind (·.keyGroup)

/-- An engine makes parity p of group g in use (R55). -/
def State.engineUses (s : State) (g : Nat) (p : Parity) : Engine → Bool
  | .active n (some q) _ => q == p && s.groupOf n == some g
  | _ => false

/-- Parity p of group g is in use (R55). -/
def State.parityInUse (s : State) (g : Nat) (p : Parity) : Bool :=
  s.pool.engines.toList.any (s.engineUses g p)

/-- A pending key becomes current (R57). -/
def KeySlot.promote (k : KeySlot) : KeySlot :=
  match k.pending with
  | some _ => ⟨k.pending, none⟩
  | none => k

def KeyGroup.promote (evenUsed oddUsed : Bool) (k : KeyGroup) : KeyGroup :=
  { k with
    even := if evenUsed then k.even else k.even.promote
    odd := if oddUsed then k.odd else k.odd.promote }

/-- Promote in each group, the first of which is group g. -/
def promoteFrom (used : Nat → Parity → Bool) : Nat → List KeyGroup → List KeyGroup
  | _, [] => []
  | g, k :: ks => k.promote (used g .even) (used g .odd) :: promoteFrom used (g + 1) ks

/-- Every pending key of a parity that is not in use is promoted (R57). -/
def State.promoteKeys (s : State) : State := s.onKeys (promoteFrom s.parityInUse 0)

/-! ## Access operations (R53, R59, R60) -/

/-- The PROVISION of a new room id has its write in flight, so that key changes are kept (R60). -/
def State.newRoomWriting (s : State) : Bool :=
  match s.port.provision with
  | some p => p.newRoom
  | none => false

/-- A group's two cell key records hold no key. -/
def KeyGroup.noKeys (k : KeyGroup) : Bool :=
  k.even.current.isNone && k.even.pending.isNone && k.odd.current.isNone && k.odd.pending.isNone

/-- The operation would change nothing (R53, R59). -/
def State.opIsIdle (s : State) (g : Nat) : AccessOp → Bool
  | .install key => s.accessKey g == some key
  | .revoke => (s.accessKey g).isNone && (s.keyGroup g).noKeys

/-- Take an access operation of group g (R53, R59, R60). -/
def State.takeAccessOp (g : Nat) (op : AccessOp) (s : State) : State :=
  if (s.keyGroup g).inFlight.isSome || s.newRoomWriting then
    s.onKeyGroup g fun k => { k with next := some op }
  else if s.opIsIdle g op then s
  else s.onKeyGroup g fun k => { k with inFlight := some op }

/-- The operation in flight for g has completed: the kept one is taken (R53), even where the PROVISION of a new
room id waits for it, which then waits for the kept one too (R60; log 49). -/
def State.nextAccessOp (g : Nat) (s : State) : State :=
  match (s.keyGroup g).next with
  | some op =>
    (s.onKeyGroup g fun k => { k with inFlight := none, next := none }).takeAccessOp g op
  | none => s.onKeyGroup g fun k => { k with inFlight := none }

/-- The access key of group g becomes `key`, in use and durably. -/
def Retained.setAccessKey (g : Nat) (key : Option Key) (r : Retained) : Retained :=
  { r with accessKeys := r.accessKeys.set g key }

/-- An access operation of any group is in flight (R60, R162). -/
def State.accessOpInFlight (s : State) : Bool := s.keys.any (·.inFlight.isSome)

/-! ## Cell key deliveries (R56) -/

/-- Epoch e is newer than epoch c: (e − c) mod 256 lies in 1..127. -/
def newerThan (e c : Epoch) : Bool := decide (1 ≤ (e - c).toNat ∧ (e - c).toNat ≤ 127)

def epochIs (k : Option CellKey) (e : Epoch) : Bool :=
  match k with
  | some k => k.epoch == e
  | none => false

/-- The cases of R56 for a delivered key, in their order, also where R58 would have an epoch that is newer than the
pending key but not than the current one become current (log 59). -/
def KeySlot.deliver (k : KeySlot) (inUse : Bool) (key : CellKey) : KeySlot :=
  if epochIs k.current key.epoch || epochIs k.pending key.epoch then k
  else
    match k.current with
    | none => { k with current := some key }
    | some c =>
      if !newerThan key.epoch c.epoch then k
      else if !inUse then ⟨some key, none⟩
      else
        match k.pending with
        | none => { k with pending := some key }
        | some p => if newerThan key.epoch p.epoch then { k with pending := some key } else k

/-! ## The keystream (R61) -/

/-- Keystream word j of a cell of service s with continuity count c, under key K. -/
def keystreamWord (key : Key) (service count j : Nat) : Word32 :=
  key.extractLsb' 0 32 * BitVec.ofNat 32 (count * 64 + j + 1) + key.extractLsb' 32 32 +
    BitVec.ofNat 32 service

/-- Decode a payload, word by word from word j on. -/
def decodeWords (key : Key) (service count : Nat) : Nat → Nat → List Byte → List Byte
  | 0, _, _ => []
  | n + 1, j, bs =>
    leBytes 4 (BitVec.ofNat 32 (leNat (bs.take 4)) ^^^ keystreamWord key service count j).toNat ++
      decodeWords key service count n (j + 1) (bs.drop 4)

/-- The 38 clear words of a scrambled payload (R61). -/
def descramble (key : Key) (service count : Nat) (payload : List Byte) : List Byte :=
  decodeWords key service count 38 0 payload

end Sys2Proof.Machine
end

