-- ==== Sys2Proof/Machine/Engines.lean ====
section
/-! DEFINITION. The Engine Pool: claims, assignment, the wait list, release, warm-up and the power policy
(R67 to R77). An operation that binds an engine answers with the outputs whose verdicts the binding
re-runs (R69, R71). -/

namespace Sys2Proof.Machine

/-- The service an engine is bound to (R67). -/
def Engine.bound : Engine → Option Nat
  | .active n _ _ => some n
  | .warming target _ => target
  | _ => none

def Engine.isReady : Engine → Bool
  | .ready _ => true
  | _ => false

def Engine.isFreeWarming : Engine → Bool
  | .warming none _ => true
  | _ => false

def Engine.isOff : Engine → Bool
  | .off => true
  | _ => false

/-- The lowest-numbered engine of a sort. -/
def State.engineWhere (s : State) (p : Engine → Bool) : Option EngineId :=
  allEngines.find? fun e => p (s.engine e)

def State.boundEngine (s : State) (n : Nat) : Option EngineId :=
  s.engineWhere fun e => e.bound == some n

/-- The idle deadline of an engine that becomes READY (R74, R75). -/
def State.idleDeadline (s : State) : Option Nat :=
  match s.cur.settings.power with
  | .auto => some (s.now + 10000)
  | .always => none

/-- An output holds an engine from now on; another engine than before clears its content-seen flag (R69,
R83). -/
def Output.hold (e : EngineId) (x : Output) : Output :=
  { x with engine := some e, contentSeen := x.contentSeen && x.engine == some e }

/-- An output holds no engine any more (R69, R83). -/
def Output.unhold (x : Output) : Output :=
  if x.engine.isSome then { x with engine := none, contentSeen := false } else x

def State.holdAll (e : EngineId) (outs : List Screen) (s : State) : State :=
  outs.foldl (fun s o => s.onOutput o (.hold e)) s

/-- The outputs that hold an engine. -/
def State.holders (s : State) (e : EngineId) : List Screen :=
  allScreens.filter fun o => (s.output o).engine == some e

/-- An engine becomes ACTIVE for a service: no last parity, the no-key timer running (R63, R69). -/
def State.activate (e : EngineId) (n : Nat) (s : State) : State :=
  s.setEngine e (.active n none (some (s.now + 500)))

/-- An output leaves the wait list; an entry with no output goes (R70). -/
def unwait (o : Screen) (ws : List WaitEntry) : List WaitEntry :=
  (ws.map fun w => { w with outputs := w.outputs.filter (· != o) }).filter
    fun w => !(w.outputs.isEmpty)

/-- An output joins the wait list entry of a service, at the tail when there is none (R70). -/
def joinWait (o : Screen) (n : Nat) (ws : List WaitEntry) : List WaitEntry :=
  if ws.any (·.service == n) then
    ws.map fun w =>
      if w.service == n && !(w.outputs.contains o) then { w with outputs := w.outputs ++ [o] } else w
  else ws ++ [⟨n, [o]⟩]

def State.onWait (f : List WaitEntry → List WaitEntry) (s : State) : State :=
  s.onPool fun p => { p with wait := f p.wait }

/-- The service an output has a claim on (R68). -/
def State.claimOf (s : State) (o : Screen) : Option Nat :=
  match (s.output o).engine with
  | some e => (s.engine e).bound
  | none => (s.pool.wait.find? fun w => w.outputs.contains o).map (·.service)

/-- Bind engine e to the oldest entry of the wait list, or let it stand free (R71, R72, R73). The engine
is one that is no longer claimed. -/
def State.freeEngine (e : EngineId) (s : State) : State × List Screen :=
  match s.pool.wait with
  | [] =>
    match s.engine e with
    | .active .. => (s.setEngine e (.ready s.idleDeadline), [])
    | .warming _ d => (s.setEngine e (.warming none d), [])
    | _ => (s, [])
  | w :: ws =>
    match s.engine e with
    | .active .. => ((s.onWait fun _ => ws).activate e w.service |>.holdAll e w.outputs, w.outputs)
    | .warming _ d =>
      (((s.onWait fun _ => ws).setEngine e (.warming (some w.service) d)).holdAll e w.outputs,
        w.outputs)
    | _ => (s, [])

/-- An engine with no holder is released (R72, R73), and pending keys of parities that leave use with it
are promoted (R57). -/
def State.releaseIfUnheld (e : EngineId) (s : State) : State × List Screen :=
  if (s.holders e).isEmpty then ((s.freeEngine e).1.promoteKeys, (s.freeEngine e).2) else (s, [])

/-- The claim of an output ends (R68); an engine left with no holder is released (R72). -/
def State.endClaim (o : Screen) (s : State) : State × List Screen :=
  match (s.output o).engine with
  | none => (s.onWait (unwait o), [])
  | some e => ((s.onWait (unwait o)).onOutput o .unhold).releaseIfUnheld e

/-- What the Pool answers a verdict run at the engine stage (R69, R83). -/
inductive EngineAnswer where
  | waits
  | warming
  | active (noKey : Bool)
  deriving DecidableEq, Repr

def Engine.answer : Engine → EngineAnswer
  | .active _ _ (some _) => .active false
  | .active _ _ none => .active true
  | .warming .. => .warming
  | _ => .waits

/-- The cases of R69 for an output with no claim on another service. -/
def State.obtainEngine (o : Screen) (n : Nat) (s : State) : State :=
  match s.boundEngine n with
  | some e => (s.onWait (unwait o)).onOutput o (.hold e)
  | none =>
    match s.engineWhere Engine.isReady with
    | some e => ((s.onWait (unwait o)).activate e n).onOutput o (.hold e)
    | none =>
      match s.engineWhere Engine.isFreeWarming with
      | some e =>
        let d := match s.engine e with
          | .warming _ d => d
          | _ => s.now + 40
        ((s.onWait (unwait o)).setEngine e (.warming (some n) d)).onOutput o (.hold e)
      | none =>
        match s.engineWhere Engine.isOff with
        | some e =>
          ((s.onWait (unwait o)).setEngine e (.warming (some n) (s.now + 40))).onOutput o (.hold e)
        | none => s.onWait (joinWait o n)

/-- A claim of output o on a service other than n ends (R68). -/
def State.endOtherClaim (o : Screen) (n : Nat) (s : State) : State × List Screen :=
  if s.claimOf o = some n then (s, []) else s.endClaim o

/-- The Pool's answer to an output as its claim now stands (R83). -/
def State.engineAnswer (s : State) (o : Screen) : EngineAnswer :=
  match (s.output o).engine with
  | some e => (s.engine e).answer
  | none => .waits

/-- A verdict run of output o reaches the engine stage for service n (R68, R69): a claim on another
service ends, and the Pool answers. The claim on an engine that a change of route ends has been let go before,
and the release of that engine is a turn of its own (`State.turnOrder`, `State.refit`; R72, R91; logs 4, 58). -/
def State.claim (o : Screen) (n : Nat) (s : State) : State × EngineAnswer × List Screen :=
  let ended := s.endOtherClaim o n
  let obtained := (ended.1.obtainEngine o n).promoteKeys
  (obtained, obtained.engineAnswer o, ended.2)

/-- A freed engine is bound to a service at once (R71, R72): ACTIVE for it, or, still WARMING, with it as its
target and the deadline kept. -/
def State.rebind (e : EngineId) (n : Nat) (s : State) : State :=
  match s.engine e with
  | .off => s
  | .warming _ d => s.setEngine e (.warming (some n) d)
  | _ => s.activate e n

/-- Engine e, once it is WARMING with no target, is the one that R69 finds for a service with no engine: none is
READY, and none WARMING with no target has a lower number (cases 3 and 4). -/
def State.foundFree (s : State) (e : EngineId) : Bool :=
  (s.engineWhere Engine.isReady).isNone &&
    !(allEngines.any fun d => decide (d < e) && (s.engine d).isFreeWarming)

/-- The engine an output left serves its new service whichever of the two, the release and the new claim, is taken
first: one that was ACTIVE always (R72, R91), one still WARMING where R69 finds it once it is free (R73, R91;
log 58). -/
def State.follows (s : State) (e : EngineId) : Bool :=
  match s.engine e with
  | .warming .. => s.foundFree e
  | _ => true

/-- The engine an output left by moving to scrambled service n serves n (R72, R91), where no output holds it, n has
no engine, and an engine is unbound: with every engine bound the claim waits, and the release hands the engine over
(R71). That one which was ACTIVE goes before another engine R69 finds is DEDUCED (log 58). -/
def State.refit (e : EngineId) (n : Nat) (s : State) : State :=
  if (s.holders e).isEmpty && (s.boundEngine n).isNone && (s.engineWhere fun x => x.bound.isNone).isSome &&
      s.follows e then
    (s.rebind e n).promoteKeys
  else s

/-- The end of a warm-up (R73). -/
def State.endWarmUp (e : EngineId) (s : State) : State × List Screen :=
  match s.engine e with
  | .warming (some n) _ => (s.activate e n, s.holders e)
  | .warming none _ =>
    match s.pool.wait with
    | [] => (s.setEngine e (.ready s.idleDeadline), [])
    | w :: ws => (((s.onWait fun _ => ws).activate e w.service).holdAll e w.outputs, w.outputs)
  | _ => (s, [])

def Engine.powered (deadline : Nat) : Engine → Engine
  | .off => .warming none deadline
  | e => e

/-- Under ALWAYS, outside a suspension, every OFF engine is powered (R75). -/
def State.powerEngines (s : State) : State :=
  if s.cur.settings.power = .always ∧ s.cur.room.suspended = false then
    s.onPool fun p => { p with engines := p.engines.map (.powered (s.now + 40)) }
  else s

/-- Suspension turns every engine OFF and empties the wait list (R76). -/
def State.enginesOff (s : State) : State :=
  ((s.onPool fun _ => ⟨⟨.off, .off, .off⟩, []⟩).onOutputs .unhold).promoteKeys

/-- What RESTART_STREAMS makes of an engine (R77). -/
def Engine.restarted (idle : Option Nat) : Engine → Engine
  | .active .. => .ready idle
  | .warming _ d => .warming none d
  | .ready none => .ready idle
  | e => e

/-- The first step of RESTART_STREAMS (R77, R179). -/
def State.restartEngines (s : State) : State :=
  ((s.onPool fun p => ⟨p.engines.map (.restarted s.idleDeadline), []⟩).onOutputs .unhold).promoteKeys

/-- READY engines after a change of the power policy (R75). -/
def Engine.repolicied (idle : Option Nat) : Engine → Engine
  | .ready _ => .ready idle
  | e => e

/-- A change of the power policy, already in use, takes effect (R75). -/
def State.powerPolicyChanged (s : State) : State :=
  (s.onPool fun p => { p with engines := p.engines.map (.repolicied s.idleDeadline) }).powerEngines

end Sys2Proof.Machine
end

