-- ==== Sys2Proof/Machine/Router.lean ====
section
/-! DEFINITION. The Output Router: the verdict and its re-runs (R81 to R85), routes and the hold (R89 to
R94), presence (R95, R96); and the lapse of unlocks, which a verdict follows (R110). -/

namespace Sys2Proof.Machine

/-! ## The verdict -/

/-- The access stage (R82). -/
def State.access (n : Nat) (r : Service) (s : State) : State × Access :=
  match r.kind with
  | .free => (s, .pass .free)
  | .tier t => (s, if s.cur.tiers.getLsbD t then .pass .tier else .refuse .unpaid)
  | .film =>
    match s.titleOf n with
    | some t =>
      (s, if (s.purchaseOf t).isSome then .pass .purchase
          else if s.occupied && !s.exhausted t then .pass .preview
          else .refuse .unpaid)
    | none => (s, .refuse .unpaid)
  | .metered terms =>
    match s.time.property with
    | some time => if s.occupied then s.askMeter n terms time else (s, .refuse .unpaid)
    | none => (s, .refuse .unpaid)

/-- Where a verdict run stands before the engine stage: decided at cases 1 to 5, 7 or 8; at case 6; or
past case 8 with the basis of its access. -/
inductive Ending where
  | early (state : OutState)
  | untitled
  | passed (service : Nat) (scrambled : Bool) (basis : Basis)
  deriving DecidableEq, Repr

def Access.ending (n : Nat) (r : Service) : Access → Ending
  | .pass basis => .passed n r.keyGroup.isSome basis
  | .refuse reason => .early (.slate reason)

/-- Case 4 of R81: the service is scrambled or of a kind other than FREE. -/
def Service.isPay (r : Service) : Bool := r.keyGroup.isSome || r.kind != .free

/-- The service has no signal (R26). -/
def State.noSignal (s : State) (n : Nat) : Bool :=
  match s.programme n with
  | some p => p.noSignal
  | none => false

/-- Cases 1 to 8 of R81. Only case 8 can change state, where it opens or evicts a meter session. -/
def State.judge (o : Screen) (s : State) : State × Ending :=
  if (s.output o).present = false then (s, .early .absent)
  else
    match (s.output o).route with
    | none => (s, .early .off)
    | some n =>
      match s.service n with
      | none => (s, .early (.slate .noService))
      | some r =>
        if s.cur.room.suspended && r.isPay then (s, .early (.slate .suspended))
        else if s.noSignal n then (s, .early (.slate .noSignal))
        else if r.kind == .film && (s.titleOf n).isNone then (s, .untitled)
        else if s.locked n o then (s, .early (.slate .lock))
        else ((s.access n r).1, (s.access n r).2.ending n r)

/-- The no-title state goes when a run ends at another case than 6 (R84). -/
def Output.titled (x : Output) : Output := { x with noTitleAt := none, noInfo := false }

/-- A run that ends at cases 1 to 5, 7 or 8 (R83, R84). -/
def Output.endEarly (d : OutState) (x : Output) : Output :=
  { x.titled with decided := d, contentSeen := false, basis := none }

/-- A run that ends at case 6 (R84). -/
def Output.endUntitled (now : Nat) (x : Output) : Output :=
  if x.noInfo then { x with decided := .slate .noInfo, contentSeen := false, basis := none }
  else
    { x with
      decided := .tuning
      contentSeen := false
      basis := none
      noTitleAt := some (x.noTitleAt.getD (now + 8000)) }

/-- A run that reaches case 10 (R83). -/
def Output.endPassed (b : Basis) (x : Output) : Output :=
  { x.titled with decided := if x.contentSeen then .playing b else .tuning, basis := some b }

/-- A run that ends at case 9 or, past an ACTIVE engine with its no-key condition clear, at case 10 (R83). -/
def Output.endEngine (b : Basis) (x : Output) : EngineAnswer → Output
  | .waits => { x.titled with decided := .slate .wait, contentSeen := false, basis := none }
  | .warming => { x.titled with decided := .tuning, contentSeen := false, basis := none }
  | .active true => { x.titled with decided := .slate .noKey, basis := none }
  | .active false => x.endPassed b

/-- One run of the verdict of an output (R81), and the outputs whose verdicts an engine it freed re-runs. A
service the lineup calls clear passes case 9 with no claim, so that one the output had ends (R83; log 17). -/
def State.verdict (o : Screen) (s : State) : State × List Screen :=
  match s.judge o with
  | (s, .early d) => ((s.endClaim o).1.onOutput o (.endEarly d), (s.endClaim o).2)
  | (s, .untitled) => ((s.endClaim o).1.onOutput o (.endUntitled s.now), (s.endClaim o).2)
  | (s, .passed _ false b) => ((s.endClaim o).1.onOutput o (.endPassed b), (s.endClaim o).2)
  | (s, .passed n true b) =>
    ((s.claim o n).1.onOutput o (fun x => x.endEngine b (s.claim o n).2.1), (s.claim o n).2.2)

/-- The scrambled service that a run of the verdict takes to the engine stage (R68). -/
def Ending.scrambled : Ending → Option Nat
  | .passed n true _ => some n
  | _ => none

/-- A run of an output that left an engine in the same event by its change of route: where the run reaches the
engine stage, the engine left serves the new service, unless it is WARMING and R69 finds another (R69, R72, R91;
log 58). -/
def State.followOn (o : Screen) (left : Option EngineId) (s : State) : State :=
  match left, (s.judge o).2.scrambled with
  | some e, some n => s.refit e n
  | _, _ => s

/-- What reaches the Pool and the meter table when verdicts are re-run: the end of the claims that a change of
route ends on an engine, and the run of an output's verdict, with the engine the output left. -/
inductive Turn where
  | release (engine : EngineId)
  | run (output : Screen) (left : Option EngineId)
  deriving DecidableEq, Repr

/-- A turn is taken; it is answered with the outputs whose verdicts an engine it freed re-runs. -/
def State.take (s : State) : Turn → State × List Screen
  | .release e => s.releaseIfUnheld e
  | .run o left => (s.followOn o left).verdict o

/-- The run of an output that an engine freed by another turn is handed to. -/
def Turn.again (o : Screen) : Turn := .run o none

/-- Take some turns, one after another, and run the verdicts of those a freed engine is handed to. The first
argument bounds the turns: each further run takes an output off the wait list (log 9). -/
def State.takeTurns : Nat → List Turn → State → State
  | 0, _, s => s
  | _ + 1, [], s => s
  | n + 1, x :: xs, s => (s.take x).1.takeTurns n (xs ++ (s.take x).2.map .again)

/-! ## Re-runs (R85) -/

/-- The output is slated for money (R85). -/
def Output.moneySlated (x : Output) : Bool :=
  x.decided == .slate .journalFull || x.decided == .slate .limit

/-- The service may need an engine or a meter session, for which outputs contend. -/
def State.contended (s : State) (n : Nat) : Bool :=
  (s.groupOf n).isSome || (s.meterTerms n).isSome

/-- The engine whose claim ends with the output's route: it holds an engine bound to another service than it
now routes to (R68, R91). -/
def State.leaves (s : State) (o : Screen) : Option EngineId :=
  (s.output o).engine.filter fun e => (s.engine e).bound != (s.output o).route

/-- The engines that some of the outputs leave, in ascending number. -/
def State.engineLeft (s : State) (outs : List Screen) : List EngineId :=
  allEngines.filter fun e => outs.any fun o => s.leaves o == some e

/-- The outputs that leave an engine refer to it no more (R69); that the engine is released if no output holds
it is a turn of its own. -/
def State.letGo (outs : List Screen) (s : State) : State :=
  outs.foldl (fun s o => if (s.leaves o).isSome then s.onOutput o .unhold else s) s

/-- The order of the turns matters: the event re-runs several outputs, and the engines left and the contended
services among their routes come to two or more (log 4). A move of one output alone ends alike in
either order (R72, R91; log 58), so that its turns need no free order. -/
def State.orderMatters (s : State) (outs : List Screen) : Bool :=
  let routes := distinct (outs.filterMap fun o => (s.output o).route)
  decide (2 ≤ outs.length ∧ 2 ≤ (s.engineLeft outs).length + (routes.filter s.contended).length)

/-- Put the items that `p` names, in the order of `these`, in the places such items have in a list. -/
def refill (p : α → Bool) : List α → List α → List α
  | [], _ => []
  | x :: xs, these =>
    if p x then
      match these with
      | y :: ys => y :: refill p xs ys
      | [] => x :: refill p xs []
    else x :: refill p xs these

/-- The turn is the run of an output slated JOURNAL_FULL or LIMIT. -/
def State.slatedTurn (s : State) : Turn → Bool
  | .run o _ => (s.output o).moneySlated
  | .release _ => false

/-- The runs of the verdicts of some outputs, each with the engine its output leaves. -/
def State.runs (s : State) (outs : List Screen) : List Turn :=
  outs.map fun o => .run o (s.leaves o)

/-- The order in which the turns are taken. The ends of claims go before the runs, which make the new claims; of
several outputs the two reach the Pool in a free order (R70, R72, R91), but that the outputs slated JOURNAL_FULL or
LIMIT are run in ascending screen number (R85). -/
def State.turnOrder (s : State) (outs : List Screen) : List Turn :=
  let turns := (s.engineLeft outs).map Turn.release ++ s.runs outs
  refill s.slatedTurn (s.freeOrder (s.orderMatters outs) turns) ((s.runs outs).filter s.slatedTurn)

/-- A report re-runs the verdicts of some outputs, given in ascending number (R85). -/
def State.rerun (outs : List Screen) (s : State) : State :=
  ((s.useOrder (s.orderMatters outs)).letGo outs).takeTurns 32 (s.turnOrder outs)

def State.rerunAll (s : State) : State := s.rerun allScreens

/-- The outputs slated JOURNAL_FULL or LIMIT. -/
def State.moneySlated (s : State) : List Screen :=
  allScreens.filter fun o => (s.output o).moneySlated

/-- The outputs routed to a service, and those slated JOURNAL_FULL or LIMIT (R85). -/
def State.routedOrSlated (s : State) (n : Nat) : List Screen :=
  allScreens.filter fun o => (s.output o).route == some n || (s.output o).moneySlated

/-! ## Lapse of unlocks (R110) -/

/-- An output shows above-ceiling content. -/
def State.showsAbove (s : State) (o : Screen) : Bool :=
  match (s.output o).shown, (s.output o).shownService with
  | .playing _, some n => s.aboveCeiling n
  | _, _ => false

/-- The effective rating of the service an output is routed to has changed since `before` (R100). -/
def State.rerated (s before : State) (o : Screen) : Bool :=
  match (s.output o).route with
  | some n => s.effectiveRating n != before.effectiveRating n
  | none => false

/-- A deferred unlock lapses now: it is judged again, an output it covers being one of those the event concerns,
and no output it covers shows above-ceiling content. -/
def State.lapses (s : State) (concerned : Screen → Bool) (covers : List Screen) (u : Option Unlock) : Bool :=
  match u with
  | some u => u.deferred && covers.any concerned && !(covers.any s.showsAbove)
  | none => false

/-- An unlock becomes absent (R110, R111). -/
def State.dropUnlock (which : Option Screen) (s : State) : State :=
  s.onLock fun l =>
    match which with
    | none => { l with room := none }
    | some o => { l with screens := l.screens.set none o }

/-- All unlocks become absent (R111). -/
def State.dropUnlocks (s : State) : State :=
  s.onLock fun l => { l with room := none, screens := ⟨none, none, none, none⟩ }

/-- The unlocks whose deferred lapse is due at an event that concerns some outputs. -/
def State.lapsing (s : State) (concerned : Screen → Bool) : List (Option Screen) :=
  (if s.lapses concerned allScreens s.lock.room then [none] else []) ++
  (allScreens.filter fun o => s.lapses concerned [o] (s.lock.screens.get o)).map some

/-- Judge the deferred unlocks that cover an output the event concerns: one whose shown state changes, or whose
service's effective rating does, or, at a change of the ceiling, every output. Each unlock that lapses raises
LOCK, and the verdicts follow (R110). -/
def State.judgeLapses (s : State) (concerned : Screen → Bool) : State :=
  let due := s.lapsing concerned
  if due = [] then s
  else ((due.foldl (fun s w => s.dropUnlock w) s).raiseTimes .lock due.length).rerunAll

/-! ## Routes (R91 to R94) -/

/-- Steps 1 to 4 of R91 for an output. -/
def Output.reroute (route : Option Nat) (x : Output) : Output :=
  { x with
    route := route
    staged := none
    contentSeen := false
    noTitleAt := none
    noInfo := false
    playSeconds := 0 }

/-- A route is applied to an output (R91). -/
def State.applyRoute (o : Screen) (route : Option Nat) (s : State) : State :=
  ((s.onOutput o (.reroute route)).refilter).rerun [o]

/-- The route a staged route stands for. -/
def Staged.route : Staged → Option Nat
  | .service n => some n
  | .off => none

/-- The output's staged route differs from its route (R94). -/
def Output.restaged (x : Output) : Bool :=
  match x.staged with
  | some g => g.route != x.route
  | none => false

/-- A hold's end applies or drops the staged route of an output (R94). -/
def Output.unstage (x : Output) : Output :=
  match x.staged with
  | some g => if g.route != x.route then x.reroute g.route else { x with staged := none }
  | none => x

/-- The screens whose staged route is NONE. -/
def State.stagedOff (s : State) : List Screen :=
  allScreens.filter fun o => (s.output o).staged == some .off

/-- The hold ends (R94): every staged route is applied at once, and a staged NONE ends its screen's unlock
(R111). -/
def State.endHold (s : State) : State :=
  let changed := allScreens.filter fun o => (s.output o).restaged
  let off := s.stagedOff
  let s := s.onRouter fun r => { r with hold := none, outputs := r.outputs.map .unstage }
  let s := off.foldl (fun s o => s.dropUnlock (some o)) s.refilter
  s.rerun (if off.isEmpty then changed else allScreens)

/-! ## Presence (R96) -/

/-- An output's presence becomes `display` (R95, R96). -/
def Output.setPresence (display : Bool) (x : Output) : Output :=
  { x with present := display, candidate := 0, contentSeen := x.contentSeen && !display }

end Sys2Proof.Machine
end

