-- ==== Sys2Proof/Machine/SetPort.lean ====
section
/-! DEFINITION. The set port: receiving frames (R159), the intake (R161, R162), and sending (R163). -/

namespace Sys2Proof.Machine

def byte (n : Nat) : Byte := BitVec.ofNat 8 n

/-! ## Sending (R163) -/

/-- A free transmitter begins the oldest queued reply; during a line break nothing is sent (R160). -/
def State.startSending (s : State) : State :=
  if s.port.transmitter = .idle ∧ s.port.lineBreak = false ∧ s.port.outbound ≠ [] then
    s.onPort fun p => { p with transmitter := .reply }
  else s

def State.queueFrame (f : OutFrame) (s : State) : State :=
  (s.onPort fun p => { p with outbound := p.outbound ++ [f] }).startSending

/-- A FRAME_ERROR or INTAKE_FULL reply is queued while fewer than 4 such replies wait (R163). -/
def State.queueError (bytes : List Byte) (s : State) : State :=
  if (s.port.outbound.filter (·.error)).length < 4 then s.queueFrame ⟨bytes, true, false⟩ else s

/-- The body of a reply: status, intake count, the fields for that status (R183). -/
def replyBody (st : Status) (count : Nat) (fields : List Byte) : List Byte :=
  byte st.code :: byte count :: fields

/-- The request at the head of the intake is replied and leaves the intake (R161, R162). -/
def State.replyWith (st : Status) (fields : List Byte) (resets : Bool) (s : State) : State :=
  match s.port.intake with
  | [] => s
  | r :: rest =>
    (s.onPort fun p =>
      { p with intake := rest, executing := false, guestWaits := false }).queueFrame
      ⟨frameBytes (replyKind r.kind) r.tag (replyBody st rest.length fields), false, resets⟩

def State.reply (st : Status) (fields : List Byte) (s : State) : State :=
  s.replyWith st fields false

/-! ## Receiving (R159, R161) -/

/-- A request is offered to the intake (R161). -/
def State.offer (r : Request) (s : State) : State :=
  if s.port.intake.length < 8 then s.onPort fun p => { p with intake := p.intake ++ [r] }
  else
    (s.raise .link).queueError
      (frameBytes (replyKind r.kind) r.tag (replyBody .intakeFull s.port.intake.length []))

/-- A frame complete with its CRC is judged (R159). -/
def State.judgeFrame (got crc : List Byte) (s : State) : State :=
  if crc = crcBytes got then s.offer ⟨got.getD 1 0, got.getD 2 0, got.drop 3⟩
  else
    (s.raise .link).queueError
      (frameBytes 0xFF 0 (replyBody .frameError s.port.intake.length []))

def State.setReceiver (r : Receiver) (s : State) : State := s.onPort fun p => { p with receiver := r }

/-- The partial frame is discarded and LINK is raised. -/
def State.dropFrame (s : State) : State := (s.setReceiver .hunt).raise .link

def Receiver.midFrame : Receiver → Bool
  | .hunt => false
  | _ => true

/-- A gap of more than 20 ms in mid-frame (R159). -/
def State.gap (s : State) : Bool :=
  s.port.receiver.midFrame && decide (s.port.lastCharAt + 20 < s.now)

/-- The receiver takes a character by its state (R159). -/
def State.takeChar (c : Byte) (s : State) : State :=
  match s.port.receiver with
  | .hunt => if c = frameSync then s.setReceiver (.frame []) else s
  | .frame [] =>
    if 2 ≤ c.toNat ∧ c.toNat ≤ 250 then s.setReceiver (.frame [c]) else s.dropFrame
  | .frame (l :: got) =>
    if got.length + 1 = l.toNat then s.setReceiver (.check (l :: (got ++ [c])) [])
    else s.setReceiver (.frame (l :: (got ++ [c])))
  | .check got [] => s.setReceiver (.check got [c])
  | .check got (d :: _) => (s.setReceiver .hunt).judgeFrame got [d, c]

/-- A character arrives on an open port that no line break holds (R158, R160): one that ends a gap meets
the receiver in HUNT. -/
def State.arriveChar (c : Byte) (s : State) : State :=
  if s.port.opened = false ∨ s.port.lineBreak = true then s
  else
    ((if s.gap then s.dropFrame else s).onPort fun p => { p with lastCharAt := s.now }).takeChar c

/-! ## The beginning of a request (R162) -/

def isGuestKind (k : Byte) : Bool := decide (0x11 ≤ k.toNat ∧ k.toNat ≤ 0x15)

def isLockKind (k : Byte) : Bool := k == 0x14 || k == 0x15

/-- The Room Controller is not busy and has taken its held list (R4). -/
def State.roomSettled (s : State) : Bool := !s.roomBusy && s.room.held.isEmpty

/-- The Rating Lock is not busy and has taken its waiting list (R102). -/
def State.lockSettled (s : State) : Bool := !s.lockBusy && s.lock.waiting.isEmpty

/-- An owner holds the request at the head back (R162). A PROVISION is held until the held list and the waiting list
have been taken, too (log 67). -/
def State.heldBack (s : State) (k : Byte) : Bool :=
  (isGuestKind k && (s.room.checkOut.isSome || (s.port.guestWaits && !s.roomSettled))) ||
  (isLockKind k && !s.lockSettled) ||
  (k == 0x18 && (s.accessOpInFlight || s.billing.tierWrite.isSome || !s.lockSettled || !s.roomSettled))

/-- The Set Port can begin a request: none executes, no FULL_RESET has been replied, and the outbound queue
has room for its reply (R162, R163, R178). -/
def State.canBegin (s : State) : Bool :=
  s.port.opened && !s.port.executing && !s.port.resetOwed &&
    decide ((s.port.outbound.filter fun f => !f.error).length < 8)

/-- The request at the head of the intake begins, when it is of a kind `p` names and nothing holds it. -/
def State.beginRequest (p : Byte → Bool) (f : Request → State → State) (s : State) : State :=
  match s.port.intake with
  | r :: _ => if p r.kind && s.canBegin && !s.heldBack r.kind then f r s else s
  | [] => s

/-- A request of a known kind: the mode test, the length of the body, then its owner's checks (R162). -/
def State.request (kind : Nat) (group : Group) (f : List Byte → State → State) (s : State) : State :=
  s.beginRequest (fun k => k.toNat == kind) fun r s =>
    if s.modeTakes group = false then s.reply .mode []
    else if r.body.length ≠ requestLength r.body kind then s.reply .badArgument []
    else f r.body s

/-- The request at the head begins a durable write and stays until its reply (R162). -/
def State.executing (s : State) : State := s.onPort fun p => { p with executing := true }

/-- A GUEST request at the head has waited for the check-out that completes (R7, R8). -/
def State.markGuestWaits (s : State) : State :=
  match s.port.intake with
  | r :: _ =>
    if isGuestKind r.kind && !s.port.executing then s.onPort fun p => { p with guestWaits := true } else s
  | [] => s

end Sys2Proof.Machine
end

