-- ==== Sys2Proof/Machine/Lock.lean ====
section
/-! DEFINITION. The Rating Lock: its writes and what waits behind them (R102), the PIN, failures and
lockout (R105 to R109), and the grant of an unlock (R107). -/

namespace Sys2Proof.Machine

/-- The duration due for a lockout count, in milliseconds (R108). A lockout that runs has a count of 1 or
more. -/
def lockoutDuration : Nat → Nat
  | 0 | 1 => 15 * 60000
  | 2 => 30 * 60000
  | 3 => 60 * 60000
  | _ => 120 * 60000

def Retained.onLock (f : LockRecord → LockRecord) (r : Retained) : Retained := { r with lock := f r.lock }

/-- A write of the Rating Lock's own begins. -/
def State.beginLockWrite (w : LockWrite) (s : State) : State := s.onLock fun l => { l with write := some w }

/-- A Room Controller write is begun: a new folio takes the default ceiling of the policy as it then stands
(R5; log 12). -/
def RoomWrite.latch (ceiling : Nat) : RoomWrite → RoomWrite
  | .newFolio f l p _ => .newFolio f l p ceiling
  | w => w

/-- A Room Controller write begins, or waits for a write of the Rating Lock's own (R102). -/
def State.beginRoomWrite (w : RoomWrite) (s : State) : State :=
  s.onRoom fun r =>
    { r with write := some ⟨w.latch s.cur.policy.ceiling, !(w.carriesLock && s.ownLockBusy)⟩ }

/-- The Rating Lock has stopped being busy: a waiting Room Controller write begins first (R102), else an
owed clearing of the lockout-running flag (R109), before any waiting message is taken (log 51). -/
def State.lockFreed (s : State) : State :=
  if s.lockBusy then s
  else
    match s.room.write with
    | some ⟨w, false⟩ => s.beginRoomWrite w
    | _ =>
      if s.lock.clearOwed then
        (s.onLock fun l => { l with clearOwed := false }).beginLockWrite .lockoutClear
      else s

/-- The write of the Rating Lock's own completes. -/
def State.endLockWrite (s : State) : State := s.onLock fun l => { l with write := none }

/-- A write that clears the lockout-running flag completes: a running lockout ends, and LOCK is raised
(R109). `before` is the state before the write's changes. -/
def State.lockoutEnded (s before : State) : State :=
  let s := s.onLock fun l => { l with lockoutAt := none, clearOwed := false }
  if before.cur.lock.running then s.raise .lock else s

/-- The grant of an unlock (R107). -/
def State.grant (room : Bool) (screen : Nat) (s : State) : State :=
  if room then
    (s.onLock fun l =>
      { l with room := some ⟨s.now + s.cur.policy.roomUnlockHours * 3600000, false⟩ }).rerunAll
  else
    match screenOfNat screen with
    | some o =>
      (s.onLock fun l =>
        { l with screens := l.screens.set (some ⟨s.now + s.cur.policy.unlockMinutes * 60000, false⟩) o }).rerunAll
    | none => s

/-- The seconds of a grant. -/
def State.grantSeconds (s : State) (room : Bool) : Nat :=
  if room then s.cur.policy.roomUnlockHours * 3600 else s.cur.policy.unlockMinutes * 60

/-- The fields of an UNLOCK OK reply (R107, R185). -/
def State.unlockFields (s : State) (room : Bool) (screen : Nat) : List Byte :=
  byte (if room then 1 else 0) :: byte screen :: leBytes 4 (s.grantSeconds room)

/-- The whole seconds left before an instant. -/
def State.secondsLeft (s : State) (at' : Nat) : Nat := (at' - s.now) / 1000

/-- R108. -/
def LockRecord.fail (l : LockRecord) : LockRecord :=
  if l.failures < 2 then { l with failures := l.failures + 1 }
  else { l with failures := 0, lockouts := min (l.lockouts + 1) 255, running := true }

/-- Take a message of the Rating Lock's that is not busy (R102, R103, R105). -/
def State.takeLockMessage (m : MsgBody) (s : State) : State :=
  match m with
  | .pinReset pin =>
    if s.cur.lock.pin = pin ∧ s.cur.lock.failures = 0 ∧ s.cur.lock.lockouts = 0 ∧
        s.cur.lock.running = false then s
    else s.beginLockWrite (.pinReset pin)
  | .setCeiling c => if s.cur.lock.ceiling = c then s else s.beginLockWrite (.ceiling c)
  | .bar on => if s.cur.lock.barred = on then s else s.beginLockWrite (.bar on)
  | _ => s

/-- Take the waiting list in order, until it is empty or a message makes the lock busy (R102). -/
def State.takeWaiting : List MsgBody → State → State
  | [], s => s.onLock fun l => { l with waiting := [] }
  | m :: ms, s =>
    if s.lockBusy then s.onLock fun l => { l with waiting := m :: ms }
    else (s.takeLockMessage m).takeWaiting ms

end Sys2Proof.Machine
end

