-- ==== Sys2Proof/Machine/RoomControl.lean ====
section
/-! DEFINITION. The Room Controller: taking its messages (R4 to R7, R13 to R16), the check-out (R8, R9), and
the closes a suspension or a check-out makes one after another (R8, R14). -/

namespace Sys2Proof.Machine

def Retained.onRoom (f : RoomRecord → RoomRecord) (r : Retained) : Retained := { r with room := f r.room }

def State.endRoomWrite (s : State) : State := s.onRoom fun r => { r with write := none }

/-! ## Check-out -/

/-- The settling folio that stage 2 of a check-out chooses, as it begins, from what the journal then holds: the
departing folio, else the present settling folio, where the journal holds records of it (R9; log 16). -/
def State.settlesAs (s : State) : Option Nat :=
  (s.cur.room.folio.filter s.holdsFolio).or (s.cur.room.settling.filter s.holdsFolio)

/-- The room record of a check-out, with the settling folio stage 2 chose: SETTLING with one, else VACANT
(R8, R9). -/
def RoomRecord.departed (settling : Option Nat) (r : RoomRecord) : RoomRecord :=
  { r with
    state := if settling.isSome then .settling else .vacant
    folio := none
    settling := settling
    limit := 0
    spend := 0
    count := 0 }

/-- A check-out in progress takes its next stage: it begins the next close of stage 1, or, with no session
left, the clearing write of stage 2 (R8). It waits for the closes of a suspension (R14). -/
def State.advanceCheckOut (s : State) : State :=
  if s.room.checkOut.isSome && s.room.write.isNone then
    if s.cur.meter.isEmpty then s.beginRoomWrite (.clearing s.settlesAs)
    else if s.closingWith .checkOut then s
    else s.closeOldest .checkOut fun x => !(s.billing.suspendCloses.contains x.service)
  else s

/-- A check-out begins (R7, R8), with the CHECK_IN that started it, if one did (R11). -/
def State.beginCheckOut (next : Option CheckIn) (s : State) : State :=
  ((s.onRoom fun r => { r with checkOut := some next }).rerunAll).advanceCheckOut

/-! ## Suspension -/

/-- The next close of a suspension begins, when the one before has ended (R14). -/
def State.advanceSuspend (s : State) : State :=
  if s.closingWith .suspend then s
  else
    match s.billing.suspendCloses.find? fun n =>
      match s.session n with
      | some x => x.closing.isNone
      | none => false with
    | some n =>
      (s.onBilling fun b =>
        { b with suspendCloses := b.suspendCloses.filter (· != n) }).beginClose n .suspend
    | none => s.onBilling fun b => { b with suspendCloses := [] }

/-! ## Taking messages -/

/-- A new folio's write (R5). -/
def State.beginNewFolio (c : CheckIn) (s : State) : State :=
  s.beginRoomWrite (.newFolio c.folio (min maxAmount c.limit) c.pin 0)

/-- The PIN a same-folio CHECK_IN changes to, when it changes it (R6): it is compared with the PIN in use as the
message is taken, whatever write of the Rating Lock is in flight (R102; log 74). -/
def State.newPin (s : State) (pin : Option Nat) : Option Nat :=
  if s.cur.lock.pin = pin then none else pin

/-- A same-folio CHECK_IN (R6). -/
def State.updateFolio (limit : Nat) (pin : Option Nat) (s : State) : State :=
  let l := max s.committed (min maxAmount limit)
  if l = s.cur.room.limit ∧ s.newPin pin = none then s
  else s.beginRoomWrite (.folioUpdate l (s.newPin pin))

/-- Take a CHECK_IN (R5). -/
def State.takeCheckIn (c : CheckIn) (s : State) : State :=
  if c.folio = 0 ∨ s.cur.room.settling = some c.folio ∨
      (s.cur.room.folio ≠ some c.folio ∧ s.holdsFolio c.folio = true) then s.raise .property
  else if s.cur.room.state = .occupied then
    if s.cur.room.folio = some c.folio then s.updateFolio c.limit c.pin
    else s.beginCheckOut (some c)
  else s.beginNewFolio c

/-- Take a CHECK_OUT (R7). -/
def State.takeCheckOut (folio : Nat) (s : State) : State :=
  if s.cur.room.state = .occupied ∧ s.cur.room.folio = some folio then s.beginCheckOut none
  else s.raise .property

/-- Take a SET_LIMIT (R13). -/
def State.takeSetLimit (folio limit : Nat) (s : State) : State :=
  if s.occupied = true ∧ s.cur.room.folio = some folio then
    let l := max s.committed (min maxAmount limit)
    if l = s.cur.room.limit then s else s.beginRoomWrite (.limit l)
  else s.raise .property

/-- Open or restart the maintenance window (R16). -/
def State.openWindow (minutes : Nat) (s : State) : State :=
  (s.onRoom fun r => { r with windowEnd := some (s.now + clamp 1 240 minutes * 60000) }).raise .property

def State.closeWindow (s : State) : State := s.onRoom fun r => { r with windowEnd := none }

/-- Take a message of the Room Controller's that is not busy (R4). -/
def State.takeRoomMessage (m : MsgBody) (s : State) : State :=
  match m with
  | .checkIn folio limit pin => s.takeCheckIn ⟨folio, limit, pin⟩
  | .checkOut folio => s.takeCheckOut folio
  | .setLimit folio limit => s.takeSetLimit folio limit
  | .serviceOpen minutes => s.openWindow minutes
  | .serviceClose => if s.room.windowEnd.isSome then s.closeWindow.raise .property else s
  | .suspend => if s.cur.room.suspended then s else s.beginRoomWrite .suspend
  | .resume => if s.cur.room.suspended then s.beginRoomWrite .resume else s
  | .lockdown on => if s.cur.room.lockdown = on then s else s.beginRoomWrite (.lockdown on)
  | _ => s

/-- Take the held list in order, until it is empty or a message makes the controller busy (R4). -/
def State.takeHeld : List MsgBody → State → State
  | [], s => s.onRoom fun r => { r with held := [] }
  | m :: ms, s =>
    if s.roomBusy then s.onRoom fun r => { r with held := m :: ms }
    else (s.takeRoomMessage m).takeHeld ms

end Sys2Proof.Machine
end

