-- ==== Sys2Proof/Machine/Release.lean ====
section
/-! DEFINITION. Release of charge records (R155, R156) and the end of the settling folio (R12). -/

namespace Sys2Proof.Machine

/-- The records a release at up-to number N removes: from the oldest, each numbered at most N and presented
at least once, up to the first that is not (R156). -/
def releasable (upTo : Nat) (records : List ChargeRecord) : List ChargeRecord :=
  records.takeWhile fun r => decide (r.number ≤ upTo) && decide (1 ≤ r.presented)

/-- A settling folio of which these records hold nothing (R12). -/
def settlingEnds (r : RoomRecord) (records : List ChargeRecord) : Bool :=
  match r.settling with
  | some f => !(records.any fun x => x.folio == f)
  | none => false

/-- A release begins (R156). -/
def State.beginRelease (upTo : Nat) (s : State) : State :=
  let gone := releasable upTo s.cur.records
  let kept := s.cur.records.drop gone.length
  if gone = [] then s
  else s.fallDue (.release (gone.map (·.number)) (counts kept) (settlingEnds s.cur.room kept))

/-- Nothing keeps a release back (R155). -/
def State.releaseFree (s : State) : Bool := !s.journalBusy && s.roomSettled

/-- The Charge Journal takes a RELEASE_CHARGES (R155). Where a kept release or held messages still await their own
steps, it is kept (log 55). -/
def State.takeRelease (upTo : Nat) (s : State) : State :=
  if upTo = 0 then s
  else if s.releaseFree = true ∧ s.journal.kept = none then s.beginRelease upTo
  else s.onJournal fun j => { j with kept := some (max upTo (j.kept.getD 0)) }

/-- The records with some numbers are gone (R156). -/
def Retained.dropRecords (numbers : List Nat) (r : Retained) : Retained :=
  { r with records := r.records.filter fun x => !(numbers.contains x.number) }

/-- The settling folio ends (R12). -/
def RoomRecord.endSettling (r : RoomRecord) : RoomRecord :=
  { r with settling := none, state := if r.state = .settling then .vacant else r.state }

end Sys2Proof.Machine
end

