-- ==== Sys2Proof/Machine/Decoder.lean ====
section
/-! DEFINITION. The Management Decoder: the tests of R37, the issue table (R40), the drop counter (R39) and
the hand-over of an accepted message to its owner (R41). -/

namespace Sys2Proof.Machine

/-- The drop counter rises by one, up to 65,535 (R39). -/
def State.countDrop (s : State) : State :=
  s.onDecoder fun d => { d with drops := min (d.drops + 1) 65535 }

/-- The issue number last recorded for a kind and scope (R40). -/
def State.issueOf (s : State) (k : MsgKind) (sc : Scope) : Option Nat :=
  (s.decoder.issues.find? fun e => e.kind == k && e.scope == sc).map (·.issue)

/-- The owner has received a message: its issue number is recorded (R40). -/
def State.recordIssue (m : Message) (s : State) : State :=
  if m.body.kind.numbered then
    s.onDecoder fun d =>
      { d with issues := ⟨m.body.kind, m.scope, m.issue⟩ ::
          d.issues.filter fun e => !(e.kind == m.body.kind && e.scope == m.scope) }
  else s

/-- The address matches this room (R38). -/
def State.addressed (s : State) (sc : Scope) (address : Nat) : Bool :=
  match sc with
  | .room => s.cur.room.roomId != 0 && address == s.cur.room.roomId
  | .group => s.cur.room.roomId != 0 && address == s.cur.room.group
  | .all => true

/-- What R37 makes of a payload. -/
inductive Judged where
  | dropped
  | discarded
  | accepted (message : Message)
  deriving DecidableEq, Repr

/-- Test 6 of R37: the issue number is a repeat. -/
def State.isRepeat (s : State) (m : Message) : Bool :=
  m.body.kind.numbered && s.issueOf m.body.kind m.scope == some m.issue

/-- Tests 4 to 6 of R37. -/
def State.judgeAddressed (s : State) (k : MsgKind) (sc : Scope) (p : List Byte) : Judged :=
  if s.addressed sc (msgAddress p) then
    match parseBody k (msgBody p) with
    | none => .dropped
    | some body =>
      if s.isRepeat ⟨sc, msgIssue p, body⟩ then .discarded else .accepted ⟨sc, msgIssue p, body⟩
  else .discarded

/-- The tests of R37, in order. -/
def State.judgePayload (s : State) (p : List Byte) : Judged :=
  if msgCheckOk p then
    match msgKind p, msgScope p with
    | some k, some sc => if k.allows sc then s.judgeAddressed k sc p else .dropped
    | _, _ => .dropped
  else .dropped

/-- The decoder judges the payloads handed over, in order, until one is accepted and awaits its owner
(R37, R41; log 8). -/
def State.judgeHanded : List (List Byte) → State → State
  | [], s => s.onDecoder fun d => { d with handed := [] }
  | p :: ps, s =>
    match s.judgePayload p with
    | .dropped => s.countDrop.judgeHanded ps
    | .discarded => s.judgeHanded ps
    | .accepted m => s.onDecoder fun d => { d with accepted := some m, handed := ps }

/-- A payload is handed over (R32): it is judged at once unless a message before it awaits its owner. -/
def State.handOver (p : List Byte) (s : State) : State :=
  match s.decoder.accepted with
  | some _ => s.onDecoder fun d => { d with handed := d.handed ++ [p] }
  | none => s.judgeHanded (s.decoder.handed ++ [p])

/-- The accepted message, when it is of kind `k`, goes to its owner, which does `f` with it; then the decoder
judges what was handed over behind it (R41). -/
def State.dispatch (k : MsgKind) (f : Message → State → State) (s : State) : State :=
  match s.decoder.accepted with
  | some m =>
    if m.body.kind = k then
      let s := f m (s.onDecoder fun d => { d with accepted := none })
      s.judgeHanded s.decoder.handed
    else s
  | none => s

/-- A message for an owner that takes messages as they come: it is received and taken. -/
def State.receive (f : MsgBody → State → State) (m : Message) (s : State) : State :=
  f m.body (s.recordIssue m)

/-- A message for the Room Controller: taken at once, held while it is busy, or discarded and counted when
the held list is full (R4). -/
def State.receiveRoom (m : Message) (s : State) : State :=
  if s.roomSettled then (s.recordIssue m).takeRoomMessage m.body
  else if s.room.held.length < 4 then
    (s.recordIssue m).onRoom fun r => { r with held := r.held ++ [m.body] }
  else s.countDrop

/-- A message for the Rating Lock: taken at once, kept waiting while it is busy, or discarded and counted
when the waiting list is full (R102). -/
def State.receiveLock (m : Message) (s : State) : State :=
  if s.lockSettled then (s.recordIssue m).takeLockMessage m.body
  else if s.lock.waiting.length < 4 then
    (s.recordIssue m).onLock fun l => { l with waiting := l.waiting ++ [m.body] }
  else s.countDrop

end Sys2Proof.Machine
end

