-- ==== Sys2Proof/Machine/Offers.lean ====
section
/-! DEFINITION. What the property offers and sets: lineup and catalogue records (R42, R43, R114 to R117),
tier grants (R118), policy and rates (R46, R47), and property time (R173, R174). -/

namespace Sys2Proof.Machine

/-! ## Lineup -/

/-- The kind of a service record, with the fields read for it (R114). -/
def RawService.judgeKind (r : RawService) : Option ServiceKind :=
  match r.kind with
  | 0 => some .free
  | 1 => if r.tier ≤ 31 then some (.tier r.tier) else none
  | 2 => some .film
  | 3 => some (.metered ⟨clamp 1 60 r.minutes, min 9999 r.price, min 999999 r.cap, min 600 r.free⟩)
  | _ => none

/-- The key group of a service record: `some none` for a clear service (R114). -/
def RawService.judgeGroup (r : RawService) : Option (Option Nat) :=
  match r.scrambled with
  | 0 => some none
  | 1 => if r.keyGroup ≤ 15 then some (some r.keyGroup) else none
  | _ => none

/-- R114, but for the channel positions others hold. -/
def RawService.judge (r : RawService) : Option Service :=
  if 1 ≤ r.service ∧ r.service ≤ 4094 ∧ 1 ≤ r.position ∧ r.position ≤ 999 then
    match r.judgeKind, r.judgeGroup with
    | some kind, some group => some ⟨r.service, r.position, kind, group, min 5 r.rating⟩
    | _, _ => none
  else none

def ServiceKind.isMetered : ServiceKind → Bool
  | .metered _ => true
  | _ => false

/-- Put a record into the lineup in ascending order of service number (R115). -/
def insertService (x : Service) : List Service → List Service
  | [] => [x]
  | y :: ys => if x.number < y.number then x :: y :: ys else y :: insertService x ys

def removeService (n : Nat) (l : List Service) : List Service := l.filter fun x => x.number != n

def meteredCount (l : List Service) : Nat := (l.filter fun x => x.kind.isMetered).length

/-- The lineup after a record that passed R114, and whether it changed (R115). -/
def addToLineup (x : Service) (l : List Service) : List Service × Bool :=
  match l.find? fun y => y.number == x.number with
  | some y =>
    if x.kind.isMetered && !y.kind.isMetered && decide (8 ≤ meteredCount l) then
      (removeService x.number l, true)
    else (insertService x (removeService x.number l), true)
  | none =>
    if 96 ≤ l.length then (l, false)
    else if x.kind.isMetered && decide (8 ≤ meteredCount l) then (l, false)
    else (insertService x l, true)

/-- A change, since `before`, of a service's lineup record is reported to the Key Store, the Rating Lock and the
Router (R55, R85, R100, R115). -/
def State.serviceChanged (n : Nat) (s before : State) : State :=
  (s.promoteKeys.judgeLapses (s.promoteKeys.rerated before)).rerun (s.routedTo n)

def State.setLineup (l : List Service) (s : State) : State := s.onBilling fun b => { b with lineup := l }

/-- A service record is judged and added (R114, R115). -/
def State.addService (raw : RawService) (s : State) : State :=
  match raw.judge with
  | some x =>
    if s.billing.lineup.any fun y => y.position == x.position && y.number != x.number then s
    else if (addToLineup x s.billing.lineup).2 then
      (s.setLineup (addToLineup x s.billing.lineup).1).serviceChanged x.number s
    else s
  | none => s

/-- The lineup is emptied (R116). -/
def State.emptyLineup (s : State) : State :=
  let emptied := (s.setLineup []).promoteKeys
  (emptied.judgeLapses (emptied.rerated s)).rerunAll

def State.onLineupAssembly (f : Assembly → Assembly) (s : State) : State :=
  s.onDecoder fun d => { d with lineup := f d.lineup }

/-- Take a LINEUP part (R42). -/
def State.takeLineup (version index count : Nat) (records : List RawService) (s : State) : State :=
  if s.decoder.lineup.version ≠ some version then
    records.foldl (fun s r => s.addService r)
      (s.emptyLineup.onLineupAssembly fun _ => ⟨some version, count, [index]⟩)
  else if s.decoder.lineup.held.contains index then s
  else if s.decoder.lineup.parts ≠ count then s.countDrop
  else
    records.foldl (fun s r => s.addService r)
      (s.onLineupAssembly fun a => { a with held := a.held ++ [index] })

/-! ## Catalogue -/

/-- R117. -/
def RawTitle.judge (r : RawTitle) : Option Title :=
  if r.title = 0 then none
  else some ⟨r.title, min 99999 r.price, min 5 r.rating, min 48 r.window⟩

def insertTitle (x : Title) : List Title → List Title
  | [] => [x]
  | y :: ys => if x.title < y.title then x :: y :: ys else y :: insertTitle x ys

/-- The catalogue after a record that passed R117; none when the record is discarded. -/
def addToCatalogue (x : Title) (l : List Title) : Option (List Title) :=
  if l.any fun y => y.title == x.title then some (insertTitle x (l.filter fun y => y.title != x.title))
  else if 64 ≤ l.length then none
  else some (insertTitle x l)

/-- A change of the catalogue is reported to the Rating Lock and the Router (R117). -/
def State.setCatalogue (l : List Title) (s : State) : State :=
  let set := s.onBilling fun b => { b with catalogue := l }
  (set.judgeLapses (set.rerated s)).rerunAll

def State.addTitle (raw : RawTitle) (s : State) : State :=
  match raw.judge with
  | some x =>
    match addToCatalogue x s.billing.catalogue with
    | some l => s.setCatalogue l
    | none => s
  | none => s

def State.onCatalogueAssembly (f : Assembly → Assembly) (s : State) : State :=
  s.onDecoder fun d => { d with catalogue := f d.catalogue }

/-- Take a CATALOGUE part (R43). -/
def State.takeCatalogue (version index count : Nat) (records : List RawTitle) (s : State) : State :=
  if s.decoder.catalogue.version ≠ some version then
    records.foldl (fun s r => s.addTitle r)
      ((s.setCatalogue []).onCatalogueAssembly fun _ => ⟨some version, count, [index]⟩)
  else if s.decoder.catalogue.held.contains index then s
  else if s.decoder.catalogue.parts ≠ count then s.countDrop
  else
    records.foldl (fun s r => s.addTitle r)
      (s.onCatalogueAssembly fun a => { a with held := a.held ++ [index] })

/-! ## Tier grants (R118) -/

/-- The set with a tier granted or not. -/
def setTier (tier : Nat) (granted : Bool) (set : BitVec 32) : BitVec 32 :=
  if granted then set ||| BitVec.ofNat 32 (2 ^ tier) else set &&& ~~~(BitVec.ofNat 32 (2 ^ tier))

/-- Take a GRANT_TIER or REVOKE_TIER. -/
def State.takeTier (tier : Nat) (granted : Bool) (s : State) : State :=
  match s.billing.tierWrite with
  | some w =>
    s.onBilling fun b => { b with tierNext := some (setTier tier granted (b.tierNext.getD w)) }
  | none =>
    if s.newRoomWriting then
      s.onBilling fun b =>
        { b with tierNext := some (setTier tier granted (b.tierNext.getD s.cur.tiers)) }
    else if setTier tier granted s.cur.tiers = s.cur.tiers then s
    else s.onBilling fun b => { b with tierWrite := some (setTier tier granted s.cur.tiers) }

/-! ## Policy and rates (R46, R47) -/

def State.takePolicy (p : Policy) (s : State) : State :=
  if s.billing.policyWrite.isSome then s.onBilling fun b => { b with policyNext := some p }
  else if s.cur.policy = p then s
  else s.onBilling fun b => { b with policyWrite := some p }

def State.takeRates (r : Rates) (s : State) : State :=
  if s.billing.ratesWrite.isSome then s.onBilling fun b => { b with ratesNext := some r }
  else if s.cur.rates = r then s
  else s.onBilling fun b => { b with ratesWrite := some r }

/-! ## Property time (R173, R174) -/

/-- A SET_TIME from `old` to `new` is a day boundary (R173). -/
def setTimeBoundary (dayStart : Nat) (old new : PTime) : Bool :=
  old.day != new.day || (decide (old.sec < dayStart * 3600) && decide (dayStart * 3600 ≤ new.sec))

/-- The UNSET flag goes, which runs every verdict (R172, R174). -/
def State.leaveUnset (new : PTime) (s : State) : State :=
  (s.onTime fun c => { c with property := some new }).rerunAll

/-- Property time is set from `old` (R173, R174). -/
def State.moveTime (old new : PTime) (s : State) : State :=
  s.onTime fun c =>
    { c with
      property := some new
      boundaryDue := c.boundaryDue || setTimeBoundary s.cur.policy.dayStart old new }

/-- Take a SET_TIME (R174). Expiry is judged on the time then set, but by no move backward (R120). -/
def State.takeTime (new : PTime) (s : State) : State :=
  match s.time.property with
  | none => (s.leaveUnset new).judgeExpiries
  | some old => if old.le new then (s.moveTime old new).judgeExpiries else s.moveTime old new

end Sys2Proof.Machine
end

