-- ==== Sys2Proof/Machine/Cells.lean ====
section
/-! DEFINITION. The meanings of the distribution-cell commands (R19 to R34, R62, R63). -/

namespace Sys2Proof.Machine

/-! ## Media -/

/-- The continuity check of R25 and the no-signal timer of R26, for a cell with count `count`. -/
def Programme.seeMedia (now count : Nat) (p : Programme) : Programme :=
  { p with
    lastCount := some count
    discontinuities :=
      match p.lastCount with
      | none => p.discontinuities
      | some c =>
        if count = (c + 1) % 16 then p.discontinuities else min (p.discontinuities + 1) 65535
    noSignal := false
    noSignalAt := now + 2000 }

/-- The ACTIVE engine of a service. -/
def State.activeEngine (s : State) (n : Nat) : Option EngineId :=
  s.engineWhere fun e =>
    match e with
    | .active m _ _ => m == n
    | _ => false

/-- A decoded or CLEAR cell restarts the no-key timer of the service's engine; a condition it clears is
reported (R63, R64). `parity` is the parity of a decoded cell. -/
def State.cellDecoded (e : EngineId) (n : Nat) (parity : Option Parity) (s : State) : State :=
  match s.engine e with
  | .active m last noKeyAt =>
    let s := (s.setEngine e (.active m (parity.or last) (some (s.now + 500)))).promoteKeys
    if noKeyAt.isNone then s.rerun (s.routedTo n) else s
  | _ => s

/-- A clear payload of a service reaches an output (R80, R83): it is delivered where it is shown, and it is
content where the last verdict run ended at case 10. -/
def Output.takeContent (n : Nat) (payload : List Byte) (x : Output) : Output :=
  let x :=
    match x.shown with
    | .playing _ => if x.shownService = some n then { x with content := payload } else x
    | _ => x
  match x.basis with
  | some b => if x.route = some n then { x with contentSeen := true, decided := .playing b } else x
  | none => x

def State.deliver (n : Nat) (payload : List Byte) (s : State) : State :=
  s.onOutputs (.takeContent n payload)

/-- The current key under which a cell of a service and parity is decoded (R62). -/
def State.cellKey (s : State) (n : Nat) (p : Parity) : Option Key :=
  match s.groupOf n with
  | some g => ((s.keyGroup g).slot p).current.map (·.key)
  | none => none

/-- The path of an accepted MEDIA cell (R27, R62). A cell that clears a set no-key condition re-runs the verdicts
before it reaches the Router (R64, R83; log 73). -/
def State.passMedia (n count : Nat) (payload : List Byte) (sc : Scramble) (s : State) : State :=
  match sc, s.activeEngine n with
  | .clear, some e => (s.cellDecoded e n none).deliver n payload
  | .clear, none => s.deliver n payload
  | .scrambled p, some e =>
    match s.cellKey n p with
    | some key => (s.cellDecoded e n (some p)).deliver n (descramble key n count payload)
    | none => s
  | .scrambled _, none => s

/-- An accepted MEDIA cell (R25 to R27). -/
def State.acceptMedia (n count : Nat) (payload : List Byte) (sc : Scramble) (s : State) : State :=
  let seen := s.onProgramme n (.seeMedia s.now count)
  (if s.noSignal n then seen.rerun (seen.routedTo n) else seen).passMedia n count payload sc

/-- The service of the cell is in use (R23). -/
def State.keeps (s : State) (n : Nat) : Bool := (s.programme n).isSome

/-- A MEDIA cell arrives (R19, R20, R23). -/
def State.arriveMedia (cell : List Byte) (s : State) : State :=
  match cellScramble cell with
  | some sc =>
    if s.cells.enabled && wellFormedCell .media cell && s.keeps (cellService cell) then
      s.acceptMedia (cellService cell) (cellCount cell) (cellPayload cell) sc
    else s
  | none => s

/-- MEDIA_CELL (R27). -/
def execMediaCell (t : Nat) (cell : List Byte) (s : State) : Out := occurs t (·.arriveMedia cell) s

/-! ## Descriptors -/

/-- The title a descriptor's title id names: none for 0 (R28). -/
def titleOfId (id : Nat) : Option Nat := if id = 0 then none else some id

/-- A descriptor updates the programme record (R28). -/
def Programme.seeDescriptor (now title rating : Nat) (p : Programme) : Programme :=
  { p with title := titleOfId title, rating := some (min 5 rating), staleAt := some (now + 8000) }

/-- A programme change since `before` is notified: deferred lapses are judged where the effective rating changed,
and the outputs on the service run (R30, R100, R110). -/
def State.programmeChanged (n : Nat) (s before : State) : State :=
  (s.judgeLapses (s.rerated before)).rerun (s.routedTo n)

/-- The descriptor says something new of the service (R28). -/
def State.descriptorDiffers (s : State) (n title rating : Nat) : Bool :=
  s.titleOf n != titleOfId title || s.descriptorRatingOf n != some (min 5 rating)

def State.acceptDescriptor (n title rating : Nat) (s : State) : State :=
  let seen := s.onProgramme n (.seeDescriptor s.now title rating)
  if s.descriptorDiffers n title rating then seen.programmeChanged n s else seen

/-- A DESCRIPTOR cell arrives (R19, R20, R23). -/
def State.arriveDescriptor (cell : List Byte) (s : State) : State :=
  if s.cells.enabled && wellFormedCell .descriptor cell && s.keeps (cellService cell) then
    s.acceptDescriptor (cellService cell) (descriptorTitle (cellPayload cell))
      (descriptorRating (cellPayload cell))
  else s

/-- DESCRIPTOR_CELL (R28). -/
def execDescriptorCell (t : Nat) (cell : List Byte) (s : State) : Out :=
  occurs t (·.arriveDescriptor cell) s

/-! ## Management and filler -/

/-- A MANAGEMENT cell arrives (R19, R20, R23, R32). -/
def State.arriveManagement (cell : List Byte) (s : State) : State :=
  if s.cells.enabled && wellFormedCell .management cell && cellService cell == 4095 then
    s.handOver (cellPayload cell)
  else s

/-- MANAGEMENT_CELL (R32). -/
def execManagementCell (t : Nat) (cell : List Byte) (s : State) : Out :=
  occurs t (·.arriveManagement cell) s

/-- FILLER (R23): a cell that is discarded has no effect, whatever it holds. -/
def execFiller (t : Nat) (_cell : List Byte) (s : State) : Out := occurs t (fun s => s) s

end Sys2Proof.Machine
end

