-- ==== Sys2Proof/Machine/Replies.lean ====
section
/-! DEFINITION. What replies and pushed frames carry, byte by byte (R183 to R185), section by section in the
order the owning rules list the fields (log 7). -/

namespace Sys2Proof.Machine

/-! ## Types of field (R185) -/

/-- An amount, journal number, folio id, count, or seconds played or viewed. -/
def amount (n : Nat) : List Byte := leBytes 4 n

/-- A service number, title id, room id or channel position. -/
def ident (n : Nat) : List Byte := leBytes 2 n

def flag (b : Bool) : List Byte := [if b then 1 else 0]

/-- An enumeration code. -/
def code (n : Nat) : List Byte := [byte n]

/-- An optional field of `width` bytes whose range excludes 0: none is carried as 0. -/
def optZero (width : Nat) (n : Option Nat) : List Byte := leBytes width (n.getD 0)

/-- An optional field of `width` bytes: none is carried as all ones. -/
def optOnes (width : Nat) (n : Option Nat) : List Byte :=
  match n with
  | some n => leBytes width n
  | none => List.replicate width 0xFF

def timeField (p : PTime) : List Byte := leBytes 2 p.day ++ leBytes 4 p.sec

/-- Property time, or UNSET: seconds 0xFFFFFFFF, and a day field the manual leaves open (log 5). -/
def propertyField (p : Option PTime) : List Byte :=
  match p with
  | some p => timeField p
  | none => leBytes 2 Config.unsetDay.toNat ++ leBytes 4 0xFFFFFFFF

/-- The whole seconds left before an optional deadline, none when it is absent. -/
def State.remaining (s : State) (deadline : Option Nat) : List Byte :=
  optOnes 4 (deadline.map s.secondsLeft)

def epochField (k : Option CellKey) : List Byte := optOnes 2 (k.map fun k => k.epoch.toNat)

/-- The items a list carries: whole items while `room` bytes last. -/
def fit : Nat → List (List Byte) → List (List Byte)
  | _, [] => []
  | room, x :: xs => if x.length ≤ room then x :: fit (room - x.length) xs else []

/-- A list as a reply holds it: its total length, the number of items carried, the items (R185). -/
def carriedList (total : Nat) (carried : List (List Byte)) : List Byte :=
  byte total :: byte carried.length :: carried.flatten

/-- A list carries whole items while `room` bytes last (R185). -/
def listField (total room : Nat) (items : List (List Byte)) : List Byte := carriedList total (fit room items)

/-- The items two lists carry in `room` bytes: an item of each in turn, and what is left of the one when the other
has no item that fits. Both lists are paged by one first index, so that no item of either is out of the reach of
asking again (R167, R185; log 29). -/
def fitBoth : Nat → List (List Byte) → List (List Byte) → List (List Byte) × List (List Byte)
  | room, [], ys => ([], fit room ys)
  | room, x :: xs, ys =>
    if x.length ≤ room then
      match ys with
      | [] => (fit room (x :: xs), [])
      | y :: ys =>
        if y.length ≤ room - x.length then
          let rest := fitBoth (room - x.length - y.length) xs ys
          (x :: rest.1, y :: rest.2)
        else (x :: fit (room - x.length) xs, [])
    else ([], fit room ys)

/-! ## Output states and journal records -/

def Basis.code : Basis → Nat
  | .free => 0
  | .tier => 1
  | .purchase => 2
  | .preview => 3
  | .metered => 4

def Reason.code : Reason → Nat
  | .lock => 0
  | .unpaid => 1
  | .limit => 2
  | .journalFull => 3
  | .suspended => 4
  | .noKey => 5
  | .wait => 6
  | .noSignal => 7
  | .noService => 8
  | .noInfo => 9

def outStateField : OutState → List Byte
  | .off => [0, 0]
  | .absent => [1, 0]
  | .tuning => [2, 0]
  | .playing b => [3, byte b.code]
  | .slate r => [4, byte r.code]

def ChargeKind.code : ChargeKind → Nat
  | .purchase => 0
  | .metered => 1
  | .credit => 2

/-- The 42 bytes of a journal record (R184). -/
def recordField (r : ChargeRecord) : List Byte :=
  amount r.number ++ code r.kind.code ++ amount r.folio ++
  ident (r.title.getD (r.service.getD 0)) ++ amount r.net ++ amount r.tax ++ amount r.total ++
  timeField r.stamp ++ amount (r.reference.getD 0) ++ amount (r.viewed.getD 0) ++
  amount (r.blocks.getD 0) ++ [byte r.presented]

/-! ## STATUS (R167) -/

def RoomState.code : RoomState → Nat
  | .vacant => 0
  | .occupied => 1
  | .settling => 2

def AccessMode.code : AccessMode → Nat
  | .lockdown => 0
  | .maintenance => 1
  | .normal => 2

/-- Section ROOM: R2, the room id and group, the store-lost flag, property time, the drop counter (R39). -/
def State.roomSection (s : State) : List Byte :=
  let r := s.cur.room
  code r.state.code ++ optZero 4 r.folio ++ optZero 4 r.settling ++ amount r.limit ++
  amount r.spend ++ amount r.count ++ flag r.suspended ++ flag r.lockdown ++ flag r.storeLost ++
  code s.mode.code ++ amount (s.secondsLeft (s.room.windowEnd.getD 0)) ++
  ident r.roomId ++ [byte r.group] ++ flag r.storeLost ++ propertyField s.time.property ++
  amount s.decoder.drops

def State.groupField (s : State) (g : Nat) : List Byte :=
  let k := s.keyGroup g
  flag (s.accessKey g).isSome ++ flag k.inFlight.isSome ++
  epochField k.even.current ++ epochField k.odd.current ++
  epochField k.even.pending ++ epochField k.odd.pending

/-- Section KEYS (R65). -/
def State.keysSection (s : State) : List Byte :=
  flag s.cur.unitKey.isSome ++ ((List.range 16).map s.groupField).flatten

def PowerPolicy.code : PowerPolicy → Nat
  | .auto => 0
  | .always => 1

/-- An engine of section ENGINES: its state, and one 2-byte field for its service or warm-up target, which is none
for an OFF or READY engine too (R78; log 50). -/
def engineField : Engine → List Byte
  | .off => code 0 ++ ident 0
  | .warming target _ => code 1 ++ optZero 2 target
  | .ready _ => code 2 ++ ident 0
  | .active n _ _ => code 3 ++ ident n

/-- The bytes that are left for the items of a reply's lists: the body ends at 248 bytes, two of which are the
status and the intake count, and each list begins with two (R185). -/
def roomLeft (fields : List Byte) (lists : Nat) : Nat := 248 - 2 - fields.length - 2 * lists

/-- Fields followed by a list paged by first index (R167). -/
def pagedList (first : Nat) (fields : List Byte) (items : List (List Byte)) : List Byte :=
  fields ++ listField items.length (roomLeft fields 1) (items.drop first)

/-- Fields followed by two lists paged by the same first index (R167). -/
def pagedLists (first : Nat) (fields : List Byte) (xs ys : List (List Byte)) : List Byte :=
  let carried := fitBoth (roomLeft fields 2) (xs.drop first) (ys.drop first)
  fields ++ carriedList xs.length carried.1 ++ carriedList ys.length carried.2

/-- Section ENGINES (R78). -/
def State.enginesSection (s : State) (first : Nat) : List Byte :=
  pagedList first
    (code s.cur.settings.power.code ++ (s.pool.engines.toList.map engineField).flatten)
    (s.pool.wait.map fun w => ident w.service)

/-- An unlock of section LOCK: the seconds left, none when it is absent, and its deferred flag, which an absent
unlock carries as clear (R112; log 52). -/
def State.unlockField (s : State) (u : Option Unlock) : List Byte :=
  s.remaining (u.map (·.endAt)) ++ flag (u.any (·.deferred))

/-- Section LOCK (R112). -/
def State.lockSection (s : State) : List Byte :=
  let l := s.cur.lock
  code l.ceiling ++ flag l.barred ++ flag l.pin.isSome ++ amount l.failures ++ amount l.lockouts ++
  flag l.running ++ s.remaining s.lock.lockoutAt ++ s.unlockField s.lock.room ++
  (s.lock.screens.toList.map s.unlockField).flatten

def purchaseField (p : Purchase) : List Byte :=
  ident p.title ++ timeField p.boughtAt ++ timeField p.expiresAt ++ amount p.total ++
  optZero 4 p.number ++ amount p.play

def previewField (p : Preview) : List Byte := ident p.title ++ amount p.used

/-- Section BILLING, in the order of R167: the tier grants as one set, bit t for tier t (log 7), and the allowance
second (R130, R167; log 64). -/
def State.billingSection (s : State) (first : Nat) : List Byte :=
  pagedLists first (leBytes 4 s.cur.tiers.toNat ++ ident s.cur.policy.preview)
    (s.cur.purchases.map purchaseField) (s.cur.previews.map previewField)

def CloseCause.code : CloseCause → Nat
  | .expiry => 0
  | .limit => 1
  | .eviction => 2
  | .checkOut => 3
  | .suspend => 4
  | .startUp => 5

def State.sessionField (s : State) (x : Session) : List Byte :=
  ident x.service ++ amount x.folio ++ timeField x.openedAt ++ leBytes 2 x.rate ++ amount x.viewed ++
  amount x.chargeable ++ amount x.blocks ++ amount x.net ++ code (if x.idle then 1 else 0) ++
  s.remaining x.rejoin ++ optOnes 1 (x.closing.map CloseCause.code)

def ratesField (r : Rates) : List Byte := leBytes 2 r.tax ++ [byte r.bundle, byte r.discount]

/-- Section METER (R144). -/
def State.meterSection (s : State) (first : Nat) : List Byte :=
  pagedLists first
    (ratesField s.cur.rates ++ amount s.cur.room.limit ++ amount s.cur.room.spend ++
      amount s.room.pendingCharge ++ amount (accruedTotal s.cur.meter))
    (s.cur.meter.map s.sessionField) (s.cur.daySpend.map fun d => ident d.service ++ amount d.units)

/-- Section JOURNAL (R157). A next number of 4,294,967,296 is carried as 0 (R185). -/
def State.journalSection (s : State) : List Byte :=
  amount s.cur.records.length ++ amount s.cur.reserved ++ amount s.journal.pendingRecord ++
  amount s.freeSlots ++ amount s.cur.nextNumber ++ optZero 4 (s.cur.records.head?.map (·.number)) ++
  optZero 4 (s.cur.records.getLast?.map (·.number)) ++ optZero 4 (s.recordAtCursor.map (·.number)) ++
  code (if s.journal.push then 1 else 0) ++ [byte s.cur.settings.highMark] ++ flag s.journal.armed ++
  flag s.journal.kept.isSome ++ optZero 4 s.journal.kept

def Receiver.code : Receiver → Nat
  | .hunt => 0
  | .frame _ => 1
  | .check _ _ => 2

/-- Section PORT (R167); the baud rate is a code of 1 byte, 0 for 115,200 and 1 for 921,600 (log 7). -/
def State.portSection (s : State) : List Byte :=
  amount s.port.intake.length ++ amount s.port.outbound.length ++ code s.port.receiver.code ++
  code (if s.port.fastBaud then 1 else 0)

/-- The section a STATUS names; none for a code the table does not hold (R167, R183). -/
def State.statusSection (s : State) (part first : Nat) : Option (List Byte) :=
  match part with
  | 0 => some s.roomSection
  | 1 => some s.keysSection
  | 2 => some (s.enginesSection first)
  | 3 => some s.lockSection
  | 4 => some (s.billingSection first)
  | 5 => some (s.meterSection first)
  | 6 => some s.journalSection
  | 7 => some s.portSection
  | _ => none

/-! ## SCREEN_STATUS (R35, R98, R168) -/

def stagedField : Option Staged → List Byte
  | none => ident 0
  | some .off => ident 0xFFFF
  | some (.service n) => ident n

/-- The programme record the reply consults for an output: none with no route or while ABSENT (R35). -/
def State.screenProgramme (s : State) (x : Output) : Option Programme :=
  if x.present then x.route.bind s.programme else none

/-- The fields of one output (R35, R98); the engine reference takes 1 byte (log 7). -/
def State.screenField (s : State) (x : Output) : List Byte :=
  let p := s.screenProgramme x
  optZero 2 x.route ++ stagedField x.staged ++ code (if x.present then 0 else 1) ++
  outStateField x.decided ++ outStateField x.shown ++ optZero 1 (x.engine.map fun e => e.val + 1) ++
  amount x.playSeconds ++ s.remaining x.noTitleAt ++
  optZero 2 (p.bind (·.title)) ++ optOnes 1 (p.bind (·.rating)) ++
  amount ((p.map (·.discontinuities)).getD 0) ++ flag (p.any (·.noSignal))

def State.screenStatus (s : State) : List Byte :=
  (s.router.outputs.toList.map s.screenField).flatten ++ flag s.router.hold.isSome ++
  optOnes 4 (s.router.hold.map fun d => d - s.now)

/-! ## LINEUP_READ and CATALOGUE_READ (R168) -/

/-- The parts held, one bit for each part index: bit i for part i (log 7). -/
def partsSet (held : List Nat) : Nat := ((distinct held).map fun i => 2 ^ i).sum

/-- An assembly: version or none, part count, parts held (R42, R168); the count is 0 with no version (log 66), and
takes the 4 bytes of a count (R185). -/
def assemblyField (a : Assembly) : List Byte :=
  optOnes 2 a.version ++ amount a.parts ++ leBytes 2 (partsSet a.held)

def ServiceKind.code : ServiceKind → Nat
  | .free => 0
  | .tier _ => 1
  | .film => 2
  | .metered _ => 3

def ServiceKind.tier? : ServiceKind → Option Nat
  | .tier t => some t
  | _ => none

def ServiceKind.terms? : ServiceKind → Option MeterTerms
  | .metered t => some t
  | _ => none

/-- A lineup record; a field not stored for its kind is none (R114). -/
def serviceField (x : Service) : List Byte :=
  ident x.number ++ ident x.position ++ code x.kind.code ++ optOnes 1 x.kind.tier? ++
  flag x.keyGroup.isSome ++ optOnes 1 x.keyGroup ++ code x.rating ++
  optZero 1 (x.kind.terms?.map (·.minutes)) ++ optOnes 4 (x.kind.terms?.map (·.price)) ++
  optOnes 4 (x.kind.terms?.map (·.cap)) ++ optOnes 2 (x.kind.terms?.map (·.free))

def titleField (x : Title) : List Byte :=
  ident x.title ++ amount x.price ++ code x.rating ++ [byte x.window]

/-- LINEUP_READ OK (R168): the number of records held is the list's total length (log 69). -/
def State.lineupReply (s : State) (first : Nat) : List Byte :=
  let a := assemblyField s.decoder.lineup
  a ++ listField s.billing.lineup.length (roomLeft a 1)
    ((s.billing.lineup.filter fun x => decide (first ≤ x.number)).map serviceField)

/-- CATALOGUE_READ OK (R168), with the number of records held as LINEUP_READ has it (log 69). -/
def State.catalogueReply (s : State) (first : Nat) : List Byte :=
  let a := assemblyField s.decoder.catalogue
  a ++ listField s.billing.catalogue.length (roomLeft a 1)
    ((s.billing.catalogue.filter fun x => decide (first ≤ x.title)).map titleField)

/-! ## READ_EVENTS and SETTINGS_READ (R165, R169) -/

/-- The pending flags, each a flag of its own, the counts, and the enable set, a class set of two bytes (R165,
R183, R185; log 7). -/
def State.eventsReply (s : State) : List Byte :=
  (EventClass.all.map fun c => flag (s.port.events.get c).pending).flatten ++
  (EventClass.all.map fun c => amount (s.port.events.get c).count).flatten ++
  leBytes 2 s.port.enabled.toNat

def settingsField (x : Settings) : List Byte :=
  code x.power.code ++ [byte x.probe, byte x.frameRate, byte x.highMark]

def RatingSource.code : RatingSource → Nat
  | .descriptor => 0
  | .lineupDefault => 1

def policyField (p : Policy) : List Byte :=
  leBytes 2 p.preview ++ [byte p.grace, byte p.window, byte p.unlockMinutes, byte p.roomUnlockHours,
    byte p.dayStart, byte p.ceiling] ++ code p.source.code

/-- SETTINGS_READ OK (R169); the baud rate is a code of 1 byte, 0 for 115,200 and 1 for 921,600 (log 7). -/
def State.settingsReply (s : State) : List Byte :=
  settingsField s.cur.settings ++ code (if s.port.fastBaud then 1 else 0) ++ flag s.port.maintenance ++
  policyField s.cur.policy ++ ratesField s.cur.rates ++ ident s.cur.room.roomId ++
  [byte s.cur.room.group] ++ flag s.cur.unitKey.isSome

end Sys2Proof.Machine
end

