-- ==== Sys2Proof/Machine/Requests.lean ====
section
/-! DEFINITION. The meanings of the requests: what each does when, at the head of the intake, it begins
(R162). The tests of its kind, of the access mode and of the length of its body are `State.request`. -/

namespace Sys2Proof.Machine

/-! ## Queries (R165 to R169) -/

/-- STATUS (R167). -/
def execStatus (t : Nat) (s : State) : Out :=
  occurs t (·.request 0x01 .everyMode fun b s =>
    match s.statusSection (field 0 1 b) (field 1 1 b) with
    | some fields => s.reply .ok fields
    | none => s.reply .badArgument []) s

/-- SCREEN_STATUS (R168). -/
def execScreenStatus (t : Nat) (s : State) : Out :=
  occurs t (·.request 0x02 .everyMode fun _ s => s.reply .ok s.screenStatus) s

/-- LINEUP_READ (R168); a first number above 4,095 is beyond every record (log 65). -/
def execLineupRead (t : Nat) (s : State) : Out :=
  occurs t (·.request 0x03 .everyMode fun b s => s.reply .ok (s.lineupReply (field 0 2 b))) s

/-- CATALOGUE_READ (R168). -/
def execCatalogueRead (t : Nat) (s : State) : Out :=
  occurs t (·.request 0x04 .everyMode fun b s => s.reply .ok (s.catalogueReply (field 0 2 b))) s

/-- READ_EVENTS (R165). -/
def execReadEvents (t : Nat) (s : State) : Out :=
  occurs t (·.request 0x05 .everyMode fun _ s => s.reply .ok s.eventsReply) s

/-- The classes of a set lose their pending flags and counts (R165). -/
def State.clearEvents (set : BitVec 8) (s : State) : State :=
  s.onPort fun p => { p with events := p.events.clearSet set }

/-- CLEAR_EVENTS (R165). -/
def execClearEvents (t : Nat) (s : State) : Out :=
  occurs t (·.request 0x06 .everyMode fun b s =>
    match classSet b with
    | some set => (s.clearEvents set).reply .ok []
    | none => s.reply .badArgument []) s

/-- SET_EVENT_MASK (R165). -/
def execSetEventMask (t : Nat) (s : State) : Out :=
  occurs t (·.request 0x07 .everyMode fun b s =>
    match classSet b with
    | some set => (s.onPort fun p => { p with enabled := set }).reply .ok []
    | none => s.reply .badArgument []) s

/-- SETTINGS_READ (R169). -/
def execSettingsRead (t : Nat) (s : State) : Out :=
  occurs t (·.request 0x0B .everyMode fun _ s => s.reply .ok s.settingsReply) s

/-! ## The journal (R151 to R153) -/

/-- A record as a presentation carries it: with the count after the increase (R151, R153). -/
def ChargeRecord.afterPresentation (r : ChargeRecord) : ChargeRecord :=
  { r with presented := min (r.presented + 1) 255 }

/-- The records from the cursor to the tail. -/
def State.remainingRecords (s : State) : Nat :=
  (s.cur.records.filter fun r => decide (s.journal.cursor ≤ r.number)).length

/-- JOURNAL_READ (R151). -/
def execJournalRead (t : Nat) (s : State) : Out :=
  occurs t (·.request 0x08 .everyMode fun _ s =>
    match s.recordAtCursor with
    | some r =>
      (s.present r).reply .ok (recordField r.afterPresentation ++ [byte (s.present r).remainingRecords])
    | none => s.reply .empty []) s

/-- JOURNAL_REWIND (R152). -/
def execJournalRewind (t : Nat) (s : State) : Out :=
  occurs t (·.request 0x09 .everyMode fun _ s =>
    (s.onJournal fun j => { j with cursor := 1 }).reply .ok []) s

/-- JOURNAL_MODE (R153). -/
def execJournalMode (t : Nat) (s : State) : Out :=
  occurs t (·.request 0x0A .everyMode fun b s =>
    match boolOfNat (field 0 1 b) with
    | some push => (s.onJournal fun j => { j with push := push }).reply .ok []
    | none => s.reply .badArgument []) s

/-! ## Routes (R89 to R94) -/

/-- The service a target resolves to (R89). -/
def State.resolve (s : State) : Target → Option Nat
  | .position p => (s.billing.lineup.find? fun r => r.position == p).map (·.number)
  | .service n => if 1 ≤ n ∧ n ≤ 4094 then some n else none

/-- A route for an output: staged while a hold runs, else applied when it differs (R89, R93). -/
def State.tuneTo (o : Screen) (n : Nat) (s : State) : State :=
  if s.router.hold.isSome then s.onOutput o fun x => { x with staged := some (.service n) }
  else if (s.output o).route = some n then s
  else s.applyRoute o (some n)

/-- TUNE (R89). -/
def execTune (t : Nat) (s : State) : Out :=
  occurs t (·.request 0x0C .everyMode fun b s =>
    match screenOfNat (field 0 1 b), (targetOf (field 1 1 b) (field 2 2 b)).bind s.resolve with
    | some o, some n => (s.tuneTo o n).reply .ok (ident n)
    | _, _ => s.reply .badArgument []) s

/-- A screen is switched off: NONE is staged while a hold runs; otherwise the route goes, the screen's
unlock ends, and every verdict is run (R90, R111). -/
def State.switchOff (o : Screen) (s : State) : State :=
  if s.router.hold.isSome then s.onOutput o fun x => { x with staged := some .off }
  else
    ((if (s.output o).route.isSome then s.applyRoute o none else s).dropUnlock (some o)).rerunAll

/-- SCREEN_OFF (R90). -/
def execScreenOff (t : Nat) (s : State) : Out :=
  occurs t (·.request 0x0D .everyMode fun b s =>
    match screenOfNat (field 0 1 b) with
    | some o => (s.switchOff o).reply .ok []
    | none => s.reply .badArgument []) s

/-- ROUTE_HOLD (R92). -/
def execRouteHold (t : Nat) (s : State) : Out :=
  occurs t (·.request 0x0E .everyMode fun _ s =>
    (s.onRouter fun r => { r with hold := some (s.now + 2000) }).reply .ok []) s

/-- ROUTE_RELEASE (R94). -/
def execRouteRelease (t : Nat) (s : State) : Out :=
  occurs t (·.request 0x0F .everyMode fun _ s =>
    (if s.router.hold.isSome then s.endHold else s).reply .ok []) s

/-- RELOCK (R111). -/
def execRelock (t : Nat) (s : State) : Out :=
  occurs t (·.request 0x10 .everyMode fun b s =>
    match scopeOf (field 0 1 b) (field 1 1 b) with
    | some none => s.dropUnlocks.rerunAll.reply .ok []
    | some (some o) => (s.dropUnlock (some o)).rerunAll.reply .ok []
    | none => s.reply .badArgument []) s

/-! ## Purchases (R122 to R125) -/

/-- What checks 2 to 10 of R123 make of a QUOTE or BUY. -/
inductive Checked where
  | refused (status : Status)
  | passed (title : Title) (time : PTime)
  deriving DecidableEq, Repr

/-- Checks 7 to 10 of R123. -/
def State.checkTitle (s : State) (o : Screen) (n title : Nat) (time : PTime) : Checked :=
  match s.titleRecord title with
  | none => .refused .noTitle
  | some x =>
    if (s.purchaseOf title).isSome then .refused .alreadyOwned
    else if s.locked n o then .refused .locked
    else if s.cur.lock.barred && s.effectiveRating n == some 5 then .refused .barred
    else .passed x time

/-- Checks 5 to 10 of R123. -/
def State.checkFilm (s : State) (o : Screen) (title : Nat) (time : PTime) : Checked :=
  match (s.output o).route.bind s.service with
  | none => .refused .notFilm
  | some r =>
    if r.kind ≠ .film then .refused .notFilm
    else if s.titleOf r.number ≠ some title then .refused .titleChanged
    else s.checkTitle o r.number title time

/-- Checks 2 to 10 of R123. -/
def State.checkSale (s : State) (screen title : Nat) : Checked :=
  match screenOfNat screen with
  | none => .refused .badArgument
  | some o =>
    if title = 0 then .refused .badArgument
    else if s.cur.room.state ≠ .occupied then .refused .notOccupied
    else
      match s.time.property with
      | none => .refused .timeUnset
      | some time => s.checkFilm o title time

/-- The total of a purchase made now (R132). -/
def State.saleTotal (s : State) (x : Title) : Nat :=
  purchaseTotal x.price s.cur.room.count s.cur.rates

/-- Checks 11 to 13 of R123: the status BUY would give. -/
def State.saleOutcome (s : State) (x : Title) : Status :=
  if s.withinLimit (s.saleTotal x) = false then .limit
  else if 0 < s.saleTotal x ∧ s.freeSlots = 0 then .journalFull
  else if 16 ≤ s.cur.purchases.length then .tableFull
  else .ok

/-- The purchase of a title made now, with no journal number yet (R119, R120, R132). -/
def State.sale (s : State) (x : Title) (time : PTime) : Purchase where
  title := x.title
  folio := s.cur.room.folio.getD 0
  boughtAt := time
  expiresAt := expiryOf time (s.windowOf x)
  net := purchaseNet x.price s.cur.room.count s.cur.rates
  tax := purchaseTax x.price s.cur.room.count s.cur.rates
  total := s.saleTotal x
  number := none
  play := 0

/-- QUOTE (R122). -/
def execQuote (t : Nat) (s : State) : Out :=
  occurs t (·.request 0x11 .guest fun b s =>
    match s.checkSale (field 0 1 b) (field 1 2 b) with
    | .refused st => s.reply st []
    | .passed x time =>
      s.reply .ok (ident x.title ++ amount (s.sale x time).net ++ amount (s.sale x time).tax ++
        amount (s.sale x time).total ++ timeField (s.sale x time).expiresAt ++
        [byte (s.saleOutcome x).code])) s

/-- A sale or a credit that will write a record is promised a slot (R148). -/
def State.promiseRecord (total : Nat) (s : State) : State :=
  s.onJournal fun j => { j with pendingRecord := if 0 < total then 1 else 0 }

/-- The checks of a BUY have passed (R124, R134). -/
def State.beginBuy (p : Purchase) (s : State) : State :=
  (((s.onRoom fun r => { r with pendingCharge := p.total }).promiseRecord p.total).executing).fallDue
    (.buy p)

/-- BUY (R123, R124). -/
def execBuy (t : Nat) (s : State) : Out :=
  occurs t (·.request 0x12 .guest fun b s =>
    match s.checkSale (field 0 1 b) (field 1 2 b) with
    | .refused st => s.reply st []
    | .passed x time =>
      if s.saleOutcome x = .ok then s.beginBuy (s.sale x time) else s.reply (s.saleOutcome x) []) s

/-- A purchase is too late to cancel at property time `now` (R125). -/
def lateToCancel (grace : Nat) (now : PTime) (p : Purchase) : Bool :=
  decide (grace ≤ now.seconds - p.boughtAt.seconds) || decide (grace ≤ p.play)

/-- The checks of a CANCEL have passed (R126). -/
def State.beginCancel (p : Purchase) (time : PTime) (s : State) : State :=
  ((s.promiseRecord p.total).executing).fallDue (.cancel p time)

/-- Checks 4 and 5 of R125. -/
def State.cancelOwned (p : Purchase) (s : State) : State :=
  match s.time.property with
  | none => s.reply .cancelLate []
  | some time =>
    if lateToCancel (s.cur.policy.grace * 60) time p then s.reply .cancelLate []
    else if 0 < p.total ∧ s.freeSlots = 0 then s.reply .journalFull []
    else s.beginCancel p time

/-- CANCEL (R125, R126). -/
def execCancel (t : Nat) (s : State) : Out :=
  occurs t (·.request 0x13 .guest fun b s =>
    if field 0 2 b = 0 then s.reply .badArgument []
    else
      match s.purchaseOf (field 0 2 b) with
      | none => s.reply .notOwned []
      | some p => s.cancelOwned p) s

/-! ## The lock (R106, R107) -/

/-- A LOCKED_OUT reply carries the whole seconds left before the lockout's deadline (R112). -/
def State.replyLockedOut (s : State) : State :=
  s.reply .lockedOut (leBytes 4 (s.secondsLeft (s.lock.lockoutAt.getD 0)))

/-- A failure begins its write (R108). -/
def State.beginFailure (s : State) : State := (s.beginLockWrite .failure).executing

/-- Checks 3 to 5 of R107, and the grant. -/
def State.tryUnlock (room : Bool) (screen pin : Nat) (s : State) : State :=
  if s.cur.lock.running then s.replyLockedOut
  else if s.cur.lock.pin = none then s.reply .noPin []
  else if s.cur.lock.pin ≠ some pin then s.beginFailure
  else if s.cur.lock.failures = 0 then
    (s.grant room screen).reply .ok (s.unlockFields room screen)
  else (s.beginLockWrite (.unlock room screen)).executing

/-- UNLOCK (R107). -/
def execUnlock (t : Nat) (s : State) : Out :=
  occurs t (·.request 0x14 .guest fun b s =>
    match scopeOf (field 0 1 b) (field 1 1 b), pinOfBytes (fieldBytes 2 4 b) with
    | some scope, some pin => s.tryUnlock scope.isNone (field 1 1 b) pin
    | _, _ => s.reply .badArgument []) s

/-- An optional PIN of a SET_PIN: none where a PIN is carried that is not four decimal digits, or the
presence byte is neither 0 nor 1 (R106, R183). -/
def carriedPin (present : Nat) (chars : List Byte) : Option (Option Nat) :=
  match boolOfNat present with
  | some true => (pinOfBytes chars).map some
  | some false => some none
  | none => none

/-- Checks 3 and 4 of R106. -/
def State.trySetPin (old : Option Nat) (new : Nat) (s : State) : State :=
  if s.cur.lock.running then s.replyLockedOut
  else if s.cur.lock.pin.isSome ∧ s.cur.lock.pin ≠ old then s.beginFailure
  else (s.beginLockWrite (.setPin new)).executing

/-- SET_PIN (R106). -/
def execSetPin (t : Nat) (s : State) : Out :=
  occurs t (·.request 0x15 .guest fun b s =>
    match carriedPin (field 0 1 b) (fieldBytes 1 4 b), carriedPin (field 5 1 b) (fieldBytes 6 4 b) with
    | some old, some (some new) => s.trySetPin old new
    | _, _ => s.reply .badArgument []) s

/-! ## RESTART_STREAMS (R179) -/

/-- The emptying of the record is notified (R30, R34). -/
def Programme.emptyingTells (p : Programme) : Bool :=
  p.title.isSome || p.rating.isSome || p.noSignal

/-- The outputs on a service whose record's emptying is notified. -/
def State.emptyingTold (s : State) : List Screen :=
  allScreens.filter fun o =>
    match (s.output o).route.bind s.programme with
    | some p => p.emptyingTells
    | none => false

/-- Step 2: every programme record is emptied, with the changes notified (R34). The changed ratings judge
deferred lapses (R100, R110; log 56). -/
def State.emptyProgrammes (s : State) : State :=
  let emptied := s.onCells fun c =>
    { c with programmes := c.programmes.map fun p => .empty p.service s.now }
  (emptied.judgeLapses (emptied.rerated s)).rerun s.emptyingTold

/-- An output with a route loses its content-seen and no-title state (R97). -/
def Output.restarted (x : Output) : Output :=
  if x.route.isSome then { x with contentSeen := false, noTitleAt := none, noInfo := false } else x

def State.routedOutputs (s : State) : List Screen :=
  allScreens.filter fun o => (s.output o).route.isSome

/-- Step 3: the verdict of every output with a route is run (R97). A run may open or evict a meter session, with the
write that goes with it (R136, R137; log 71). -/
def State.restartOutputs (s : State) : State := (s.onOutputs .restarted).rerun s.routedOutputs

/-- RESTART_STREAMS (R179). -/
def execRestartStreams (t : Nat) (s : State) : Out :=
  occurs t (·.request 0x16 .restart fun _ s =>
    s.restartEngines.emptyProgrammes.restartOutputs.reply .ok []) s

/-! ## Service requests (R170, R171, R178) -/

/-- SETTINGS_WRITE (R170). -/
def execSettingsWrite (t : Nat) (s : State) : Out :=
  occurs t (·.request 0x17 .service fun b s =>
    match settingsOfBody b s.cur.settings with
    | none => s.reply .badArgument []
    | some x =>
      if x = s.cur.settings then s.reply .ok (settingsField x)
      else (s.onPort fun p => { p with settings := some x }).executing) s

/-- The write of a PROVISION begins; one that names a new room id discards the kept key changes (R60). -/
def State.beginProvision (p : Provision) (s : State) : State :=
  ((if p.newRoom then s.onKeys (·.map fun k => { k with next := none }) else s).onPort fun q =>
    { q with provision := some p }).executing

/-- PROVISION (R18, R171). -/
def execProvision (t : Nat) (s : State) : Out :=
  occurs t (·.request 0x18 .service fun b s =>
    let p : Provision :=
      { roomId := field 0 2 b
        group := field 2 1 b
        unitKey := keyOfBytes (fieldBytes 3 8 b)
        newRoom := field 0 2 b != s.cur.room.roomId }
    if p.roomId = 0 ∨ 9999 < p.roomId ∨ 63 < p.group then s.reply .badArgument []
    else if p.newRoom = true ∧ (s.cur.records ≠ [] ∨ s.cur.reserved ≠ 0) then
      s.reply .journalPending []
    else s.beginProvision p) s

/-- FULL_RESET (R178): replied OK; no request begins after the reply is made. -/
def execFullReset (t : Nat) (s : State) : Out :=
  occurs t (·.request 0x19 .service fun _ s =>
    (s.replyWith .ok [] true).onPort fun p => { p with resetOwed := true }) s

/-- A kind the part does not have (R183). -/
def unknownKind (k : Byte) : Bool := k == 0 || decide (0x1A ≤ k.toNat)

/-- UNKNOWN_REQUEST (R161, R162). -/
def execUnknownRequest (t : Nat) (s : State) : Out :=
  occurs t (·.beginRequest unknownKind fun _ s => s.reply .unknownRequest []) s

end Sys2Proof.Machine
end

