-- ==== Sys2Proof/Machine/Startup.lean ====
section
/-! DEFINITION. Power-on, start-up and the loss of power (R172, R175 to R178). -/

namespace Sys2Proof.Machine

/-- Retained state as a start-up takes it from an intact store: a session found there is open, whatever
close had begun (R142), and its rejoin expiry, which is volatile, is gone (R135). -/
def Retained.restored (r : Retained) : Retained :=
  { r with meter := r.meter.map fun x => { x with closing := none, rejoin := none } }

/-- What stage 2 takes the retained items to be (R176). -/
def Retained.checked (intact : Bool) (r : Retained) : Retained := if intact then r.restored else .lost

/-- The interval between frame boundaries, in thirds of a millisecond (R87). -/
def frameInterval (rate : Nat) : Nat := if rate = 60 then 50 else 60

/-- The Timebase at stage 1 (R172). -/
def Timebase.initial (rate : Nat) : Timebase := ⟨0, none, 1000, frameInterval rate, false⟩

/-- Every volatile item takes its start-up value, with the retained items `r` and the straps given
(R178, stage 1). -/
def startedWith (r : Retained) (boot : Boot) (fastBaud maintenance : Bool) (s : State) : State where
  power := .starting
  time := .initial r.settings.frameRate
  cur := r
  store := r
  room := .initial
  cells := .initial
  decoder := .initial
  keys := List.replicate 16 .empty
  pool := .initial
  router := .initial boot
  lock := .initial
  billing := .initial
  turns := []
  journal := .initial
  port := .initial fastBaud maintenance
  serials := []
  choices := s.choices
  pending := s.pending

/-- Start-up begins the close of the next session it found (R142, stage 4). -/
def State.closeFound (s : State) : State := s.closeOldest .startUp fun _ => true

/-- Stages 1 to 3, and the beginning of stage 4, of a start-up with the straps as they are (R178): the
store is checked, a loss raises PROPERTY, and the sessions found begin to close. -/
def State.startUp (boot : Boot) (fastBaud maintenance : Bool) (s : State) : State :=
  let s := startedWith (s.store.checked boot.storeIntact) boot fastBaud maintenance s
  (if boot.storeIntact then s else s.raise .property).closeFound

/-- A FULL_RESET begins start-up: the straps are not sampled and the window stays closed (R16, R177). -/
def State.fullReset (boot : Boot) (s : State) : State :=
  s.startUp boot s.port.fastBaud s.port.maintenance

/-- Power-on samples the straps at stage 3: a set maintenance strap opens the window for 30 minutes
(R16, R177). -/
def State.powerUp (fastBaud maintenance : Bool) (boot : Boot) (s : State) : State :=
  (s.startUp boot fastBaud maintenance).onRoom fun r =>
    { r with windowEnd := if maintenance then some 1800000 else none }

/-- Stages 5 to 7, once every close of stage 4 has completed (R178): the armed flag is judged (R145), a
running lockout restarted (R109), the Cell Front enabled (R20), the port opened (R158), the outputs
released (R97) and, under ALWAYS, OFF engines powered (R75). -/
def State.finishStartUp (s : State) : State :=
  let s := s.onJournal fun j =>
    { j with armed := decide (s.cur.records.length < s.cur.settings.highMark) }
  let s := s.onLock fun l =>
    { l with lockoutAt :=
        if s.cur.lock.running then some (s.now + lockoutDuration s.cur.lock.lockouts) else none }
  let s := s.onCells fun c => { c with enabled := true }
  let s := s.onPort fun p => { p with opened := true }
  let s := s.onRouter fun r => { r with dark := false }
  { s.powerEngines with power := .running }

/-- Power is lost: writes in flight are cut, and every volatile item goes (R175, R178). What the part holds
without power is its store. -/
def State.powerDown (s : State) : State :=
  { startedWith s.store ⟨true, true, true, true, true⟩ false false s with power := .off }

end Sys2Proof.Machine
end

