-- ==== Sys2Proof/Machine/Completions.lean ====
section
/-! DEFINITION. The meanings of the completions of durable writes (R175): each takes effect when its write is
in flight, and has none otherwise. -/

namespace Sys2Proof.Machine

/-! ## Shared operations -/

/-- The Room Controller's write in flight. -/
def State.roomWriteInFlight (s : State) : Option RoomWrite :=
  match s.room.write with
  | some ⟨w, true⟩ => some w
  | _ => none

/-- A changed spend limit or folio spend re-runs the outputs slated for money (R85, R133). -/
def State.moneyChanged (s before : State) : State :=
  if s.cur.room.limit = before.cur.room.limit ∧ s.cur.room.spend = before.cur.room.spend then s
  else s.rerun s.moneySlated

/-! ## The Room Controller's writes -/

/-- The room record of a new folio (R5). -/
def RoomRecord.newFolio (folio limit : Nat) (r : RoomRecord) : RoomRecord :=
  { r with state := .occupied, folio := some folio, limit := limit, spend := 0, count := 0 }

/-- The lock state of a new folio (R5). -/
def LockRecord.newFolio (pin : Option Nat) (ceiling : Nat) (l : LockRecord) : LockRecord :=
  { l with ceiling := ceiling, pin := pin, failures := 0, lockouts := 0, running := false }

/-- A new folio opens (R5, R109): a deferred lapse is judged against the new ceiling (R110). -/
def State.openFolio (folio limit : Nat) (pin : Option Nat) (ceiling : Nat) (s : State) : State :=
  let opened := s.endRoomWrite.durably fun r =>
    (r.onRoom (.newFolio folio limit)).onLock (.newFolio pin ceiling)
  ((((opened.lockoutEnded s).raise .property).judgeLapses fun _ => ceiling != s.cur.lock.ceiling).rerunAll).lockFreed

/-- NEW_FOLIO_WRITE_COMPLETE (R5). -/
def execNewFolioWriteComplete (t : Nat) (s : State) : Out :=
  occurs t (fun s =>
    match s.roomWriteInFlight with
    | some (.newFolio folio limit pin ceiling) => s.openFolio folio limit pin ceiling
    | _ => s) s

/-- A limit that a write carries takes effect: no limit stands below what is committed (R13, R133; log 15). -/
def State.setLimit (limit : Nat) (s : State) : State :=
  s.durably fun r => r.onRoom fun x => { x with limit := max limit s.committed }

/-- The PIN a same-folio CHECK_IN carried (R6). -/
def State.replacePin (pin : Option Nat) (s : State) : State :=
  match pin with
  | some _ => s.durably fun r => r.onLock fun l => { l with pin := pin }
  | none => s

/-- FOLIO_UPDATE_WRITE_COMPLETE (R6): PROPERTY is raised as at a limit write (log 15). -/
def execFolioUpdateWriteComplete (t : Nat) (s : State) : Out :=
  occurs t (fun s =>
    match s.roomWriteInFlight with
    | some (.folioUpdate limit pin) =>
      (((s.endRoomWrite.setLimit limit).replacePin pin).raise .property).moneyChanged s |>.lockFreed
    | _ => s) s

/-- LIMIT_WRITE_COMPLETE (R13): PROPERTY is raised for the message that began the write, also where the clamp at the
completion leaves L as it was (log 15). -/
def execLimitWriteComplete (t : Nat) (s : State) : Out :=
  occurs t (fun s =>
    match s.roomWriteInFlight with
    | some (.limit limit) => ((s.endRoomWrite.setLimit limit).raise .property).moneyChanged s
    | _ => s) s

/-- The suspended flag takes its value, and PROPERTY is raised (R14). -/
def State.setSuspended (on : Bool) (s : State) : State :=
  (s.endRoomWrite.durably fun r => r.onRoom fun x => { x with suspended := on }).raise .property

/-- The sessions a suspension closes: those open and not closing (R14). -/
def State.closeForSuspension (s : State) : State :=
  (s.onBilling fun b =>
    { b with
      suspendCloses := (s.cur.meter.filter fun x => x.closing.isNone).map (·.service) }).advanceSuspend

/-- SUSPEND_WRITE_COMPLETE (R14, R76). -/
def execSuspendWriteComplete (t : Nat) (s : State) : Out :=
  occurs t (fun s =>
    match s.roomWriteInFlight with
    | some .suspend => (s.setSuspended true).closeForSuspension.enginesOff.rerunAll
    | _ => s) s

/-- RESUME_WRITE_COMPLETE (R14, R75). -/
def execResumeWriteComplete (t : Nat) (s : State) : Out :=
  occurs t (fun s =>
    match s.roomWriteInFlight with
    | some .resume => (s.setSuspended false).powerEngines.rerunAll
    | _ => s) s

/-- LOCKDOWN_WRITE_COMPLETE (R15, R111). -/
def execLockdownWriteComplete (t : Nat) (s : State) : Out :=
  occurs t (fun s =>
    match s.roomWriteInFlight with
    | some (.lockdown on) =>
      let s := (s.endRoomWrite.durably fun r =>
        r.onRoom fun x => { x with lockdown := on }).raise .property
      (if on then s.dropUnlocks else s).rerunAll
    | _ => s) s

/-- What the clearing write carries (R8, R9). -/
def State.clearFolio (settling : Option Nat) (s : State) : State :=
  s.durably fun r =>
    { r with
      room := r.room.departed settling
      lock := { r.lock with pin := none }
      purchases := []
      previews := [] }

/-- Stage 3 of R8: a CHECK_IN that started the check-out is taken as a new folio (R11). -/
def State.takeNextFolio (next : Option CheckIn) (s : State) : State :=
  match next with
  | some c => s.beginNewFolio c
  | none => s

/-- The check-out completes (R8). -/
def State.completeCheckOut (settling : Option Nat) (s : State) : State :=
  let cleared := ((s.endRoomWrite.clearFolio settling).dropUnlocks).onRoom fun r => { r with checkOut := none }
  ((((cleared.raise .property).rerunAll).markGuestWaits).takeNextFolio (s.room.checkOut.getD none)).lockFreed

/-- CHECKOUT_CLEARING_COMPLETE (R8, R9, R11). -/
def execCheckoutClearingComplete (t : Nat) (s : State) : Out :=
  occurs t (fun s =>
    match s.roomWriteInFlight with
    | some (.clearing settling) => s.completeCheckOut settling
    | _ => s) s

/-! ## PROVISION (R171) -/

/-- The retained items after a PROVISION that names a new room id (R18, R49, R60, R118). -/
def Retained.newRoom (p : Provision) (r : Retained) : Retained :=
  { r with
    room :=
      { state := .vacant
        folio := none
        settling := none
        limit := 0
        spend := 0
        count := 0
        suspended := r.room.suspended
        lockdown := r.room.lockdown
        storeLost := false
        roomId := p.roomId
        group := p.group }
    lock := { r.lock with pin := none }
    unitKey := some p.unitKey
    accessKeys := List.replicate 16 none
    tiers := 0
    purchases := []
    previews := []
    resetSerial := none }

/-- The retained items after a PROVISION that repeats the room id (R171). -/
def Retained.sameRoom (p : Provision) (r : Retained) : Retained :=
  { r with unitKey := some p.unitKey, room := { r.room with group := p.group, storeLost := false } }

/-- The new room's changes outside the store: keys and kept changes go, every unlock ends, and every verdict
is run (R18, R60, R111, R118). -/
def State.enterNewRoom (p : Provision) (s : State) : State :=
  ((((s.durably (.newRoom p)).onKeys fun _ => List.replicate 16 .empty).onBilling fun b =>
    { b with tierNext := none }).dropUnlocks).rerunAll

/-- The PROVISION changes the room id, the group or the store-lost flag (R171). -/
def Provision.changes (p : Provision) (r : RoomRecord) : Bool :=
  p.newRoom || p.group != r.group || r.storeLost

/-- PROVISION_WRITE_COMPLETE (R171). -/
def execProvisionWriteComplete (t : Nat) (s : State) : Out :=
  occurs t (fun s =>
    match s.port.provision with
    | some p =>
      let ended := s.onPort fun q => { q with provision := none }
      let done := if p.newRoom then ended.enterNewRoom p else ended.durably (.sameRoom p)
      ((if p.changes s.cur.room then done.raise .property else done).reply .ok []).lockFreed
    | none => s) s

/-! ## The reset serial (R49) -/

/-- RESET_SERIAL_WRITE_COMPLETE (R49, R178): start-up begins with the serial made durable. -/
def execResetSerialWriteComplete (t : Nat) (serial : Nat) (boot : Boot) (s : State) : Out :=
  occurs t (fun s =>
    if s.serials.contains serial then
      (s.onStore fun r => { r with resetSerial := some serial }).fullReset boot
    else s) s

/-! ## The Rating Lock's writes -/

def State.durableLock (f : LockRecord → LockRecord) (s : State) : State :=
  s.endLockWrite.durably (.onLock f)

/-- CEILING_WRITE_COMPLETE (R103, R110). -/
def execCeilingWriteComplete (t : Nat) (s : State) : Out :=
  occurs t (fun s =>
    match s.lock.write with
    | some (.ceiling c) =>
      ((s.durableLock fun l => { l with ceiling := c }).rerunAll.judgeLapses fun _ => true).lockFreed
    | _ => s) s

/-- BAR_WRITE_COMPLETE (R103). -/
def execBarWriteComplete (t : Nat) (s : State) : Out :=
  occurs t (fun s =>
    match s.lock.write with
    | some (.bar on) => (s.durableLock fun l => { l with barred := on }).rerunAll.lockFreed
    | _ => s) s

/-- PIN_RESET_WRITE_COMPLETE (R105, R109). -/
def execPinResetWriteComplete (t : Nat) (s : State) : Out :=
  occurs t (fun s =>
    match s.lock.write with
    | some (.pinReset pin) =>
      ((s.durableLock fun l =>
        { l with pin := pin, failures := 0, lockouts := 0, running := false }).lockoutEnded s).lockFreed
    | _ => s) s

/-- SET_PIN_WRITE_COMPLETE (R106). -/
def execSetPinWriteComplete (t : Nat) (s : State) : Out :=
  occurs t (fun s =>
    match s.lock.write with
    | some (.setPin pin) =>
      ((s.durableLock fun l => { l with pin := some pin, failures := 0 }).reply .ok []).lockFreed
    | _ => s) s

/-- The failure recorded is a third in a row: a lockout starts, and LOCK is raised (R108). -/
def State.startLockout (s : State) : State :=
  (s.onLock fun l => { l with lockoutAt := some (s.now + lockoutDuration s.cur.lock.lockouts) }).raise .lock

/-- The BAD_PIN reply: the failure count, and the seconds of a lockout or none (R108, R185). -/
def State.replyBadPin (lockout : Bool) (s : State) : State :=
  s.reply .badPin (byte s.cur.lock.failures ::
    optOnes 4 (if lockout then some (lockoutDuration s.cur.lock.lockouts / 1000) else none))

/-- PIN_FAILURE_WRITE_COMPLETE (R108). -/
def execPinFailureWriteComplete (t : Nat) (s : State) : Out :=
  occurs t (fun s =>
    match s.lock.write with
    | some .failure =>
      let failed := s.durableLock .fail
      if s.cur.lock.failures < 2 then (failed.replyBadPin false).lockFreed
      else (failed.startLockout.replyBadPin true).lockFreed
    | _ => s) s

/-- UNLOCK_WRITE_COMPLETE (R107). -/
def execUnlockWriteComplete (t : Nat) (s : State) : Out :=
  occurs t (fun s =>
    match s.lock.write with
    | some (.unlock room screen) =>
      (((s.durableLock fun l => { l with failures := 0 }).grant room screen).reply .ok
        (s.unlockFields room screen)).lockFreed
    | _ => s) s

/-- LOCKOUT_CLEAR_WRITE_COMPLETE (R109). -/
def execLockoutClearWriteComplete (t : Nat) (s : State) : Out :=
  occurs t (fun s =>
    match s.lock.write with
    | some .lockoutClear =>
      (s.endLockWrite.onStore (.onLock fun l => { l with running := false })).lockFreed
    | _ => s) s

/-! ## BUY and CANCEL (R124, R126, R127) -/

def TurnWrite.isBuy : TurnWrite → Bool
  | .buy _ => true
  | _ => false

def TurnWrite.isCancel : TurnWrite → Bool
  | .cancel _ _ => true
  | _ => false

/-- The journal record of a purchase (R124, R146). -/
def purchaseRecord (p : Purchase) : ChargeRecord where
  number := 0
  kind := .purchase
  folio := p.folio
  title := some p.title
  service := none
  net := p.net
  tax := p.tax
  total := p.total
  stamp := p.boughtAt
  reference := none
  viewed := none
  blocks := none
  presented := 0

/-- The journal record of a credit (R126, R146). -/
def creditRecord (p : Purchase) (stamp : PTime) : ChargeRecord where
  number := 0
  kind := .credit
  folio := p.folio
  title := some p.title
  service := none
  net := p.net
  tax := p.tax
  total := p.total
  stamp := stamp
  reference := p.number
  viewed := none
  blocks := none
  presented := 0

def Retained.dropPurchase (title : Nat) (r : Retained) : Retained :=
  { r with purchases := r.purchases.filter fun q => q.title != title }

/-- A purchase joins the table: in the store it takes the place of one of its title whose removal is still to be made
durable (R119, R120; log 24), and stands beside one of another title (log 70). -/
def Retained.addPurchase (p : Purchase) (r : Retained) : Retained :=
  { r with purchases := insertPurchase p (r.dropPurchase p.title).purchases }

/-- S and n after a sale with a record (R124, R127). -/
def RoomRecord.charged (total : Nat) (r : RoomRecord) : RoomRecord :=
  { r with spend := r.spend + total, count := min 16 (r.count + 1) }

/-- S and n after a credit (R126, R127). -/
def RoomRecord.credited (total : Nat) (r : RoomRecord) : RoomRecord :=
  { r with spend := r.spend - total, count := r.count - 1 }

/-- The number the purchase's record takes, when it writes one (R119, R147). -/
def State.numbered (s : State) (p : Purchase) : Purchase :=
  { p with number := if 0 < p.total then some s.cur.nextNumber else none }

/-- What a BUY write carries takes effect (R124). -/
def State.sell (p : Purchase) (s : State) : State :=
  if 0 < p.total then
    ((s.durably fun r => (r.onRoom (.charged p.total)).addPurchase (s.numbered p)).appendRecord
      (purchaseRecord p)).occupancyRose
  else s.durably (.addPurchase (s.numbered p))

/-- What a CANCEL write carries takes effect (R126). -/
def State.refund (p : Purchase) (stamp : PTime) (s : State) : State :=
  if 0 < p.total then
    ((s.durably fun r => (r.onRoom (.credited p.total)).dropPurchase p.title).appendRecord
      (creditRecord p stamp)).occupancyRose
  else s.durably (.dropPurchase p.title)

/-- The pending charge and the pending record return to 0 (R13, R148). -/
def State.nothingPending (s : State) : State :=
  (s.onRoom fun r => { r with pendingCharge := 0 }).onJournal fun j => { j with pendingRecord := 0 }

/-- The fields of a BUY OK reply (R124, R185). -/
def buyFields (p : Purchase) : List Byte :=
  ident p.title ++ amount p.net ++ amount p.tax ++ amount p.total ++ optZero 4 p.number ++
  timeField p.expiresAt

/-- BUY_WRITE_COMPLETE (R124): the next waiting write begins before the verdicts are run (log 72). -/
def execBuyWriteComplete (t : Nat) (s : State) : Out :=
  occurs t (fun s =>
    match takeBegun TurnWrite.isBuy false false s.turns with
    | some (.buy p, rest) =>
      (((((s.onTurns fun _ => rest).sell p).nothingPending.turnsAdvance).reply .ok
        (buyFields (s.numbered p))).rerunAll)
    | _ => s) s

/-- The fields of a CANCEL OK reply: the credit's number or none, and the total reversed (R126, R185). -/
def State.cancelFields (s : State) (p : Purchase) : List Byte :=
  optZero 4 (if 0 < p.total then some s.cur.nextNumber else none) ++ amount p.total

/-- CANCEL_WRITE_COMPLETE (R126): the next waiting write begins before the verdicts are run (log 72). -/
def execCancelWriteComplete (t : Nat) (s : State) : Out :=
  occurs t (fun s =>
    match takeBegun TurnWrite.isCancel false false s.turns with
    | some (.cancel p stamp, rest) =>
      (((((s.onTurns fun _ => rest).refund p stamp).nothingPending.turnsAdvance).reply .ok
        (s.cancelFields p)).rerunAll)
    | _ => s) s

/-! ## Meter closes and meter writes (R137, R141) -/

def TurnWrite.closes (service : Nat) : TurnWrite → Bool
  | .close n _ _ => n == service
  | _ => false

/-- The journal record of a closed session (R141, R146). -/
def meteredRecord (x : Session) (stamp : PTime) : ChargeRecord where
  number := 0
  kind := .metered
  folio := x.folio
  title := none
  service := some x.service
  net := x.net
  tax := taxOf x.net x.rate
  total := x.contribution
  stamp := stamp
  reference := none
  viewed := some x.viewed
  blocks := some x.blocks
  presented := 0

/-- A session leaves the meter table with its reservation. The store holds a reservation for each session
it holds, and no other (R137). -/
def Retained.endSession (n : Nat) (r : Retained) : Retained :=
  if r.meter.any fun x => x.service == n then
    { r with meter := r.meter.filter (fun x => x.service != n), reserved := r.reserved - 1 }
  else r

/-- S rises by a closed session's total (R134). -/
def Retained.spend (total : Nat) (r : Retained) : Retained :=
  r.onRoom fun x => { x with spend := x.spend + total }

/-- What a close write carries takes effect (R141, R148, R149). -/
def State.endSession (x : Session) (stamp : PTime) (charged : Bool) (s : State) : State :=
  if charged then
    (s.durably fun r => (r.endSession x.service).spend x.contribution).appendRecord (meteredRecord x stamp)
  else (s.durably (.endSession x.service)).occupancyFell

/-- What follows a close: the next waiting write begins, then the reports of R141 (log 72), and the next close of a
start-up, a suspension or a check-out (R8, R14, R142). -/
def State.afterClose (n : Nat) (s : State) : State :=
  let told := (s.turnsAdvance.rerun (s.routedOrSlated n)).onBilling fun b =>
    { b with suspendCloses := b.suspendCloses.filter (· != n) }
  if told.power = .starting then told.closeFound else told.advanceSuspend.advanceCheckOut

/-- METER_CLOSE_COMPLETE (R141). -/
def execMeterCloseComplete (t : Nat) (service : Nat) (s : State) : Out :=
  occurs t (fun s =>
    match takeBegun (TurnWrite.closes service) false false s.turns, s.session service with
    | some (.close n stamp charged, rest), some x =>
      ((s.onTurns fun _ => rest).endSession x stamp charged).afterClose n
    | _, _ => s) s

/-- A meter write becomes durable (R137). -/
def Retained.takeImage (image : MeterImage) (r : Retained) : Retained :=
  { r with meter := image.meter, daySpend := image.daySpend, reserved := image.reserved }

/-- The next meter write falls due when one is owed (R137): now, behind what has fallen due since it was owed
(log 54). -/
def State.nextMeterWrite (s : State) : State :=
  if s.billing.meterOwed then
    (s.onBilling fun b => { b with meterOwed := false }).fallDue (.meter none)
  else s.turnsAdvance

/-- METER_WRITE_COMPLETE (R137). -/
def execMeterWriteComplete (t : Nat) (s : State) : Out :=
  occurs t (fun s =>
    match takeBegun TurnWrite.isMeter false false s.turns with
    | some (.meter (some image), rest) =>
      ((s.onTurns fun _ => rest).onStore (.takeImage image)).nextMeterWrite
    | _ => s) s

/-! ## Viewing writes and expiries (R120, R121) -/

/-- A stored purchase with the play seconds in use (R121). -/
def Purchase.withPlay (inUse : List Purchase) (p : Purchase) : Purchase :=
  match inUse.find? (·.same p) with
  | some q => { p with play := q.play }
  | none => p

/-- A viewing write becomes durable, with the counts as they stand in use (R121). -/
def Retained.takeViewing (inUse : Retained) (r : Retained) : Retained :=
  { r with purchases := r.purchases.map (·.withPlay inUse.purchases), previews := inUse.previews }

/-- VIEWING_WRITE_COMPLETE (R121); an owed write begins at once (log 62). -/
def execViewingWriteComplete (t : Nat) (s : State) : Out :=
  occurs t (fun s =>
    if s.billing.viewingWrite then
      (s.onStore (.takeViewing s.cur)).onBilling fun b =>
        { b with viewingWrite := b.viewingOwed, viewingOwed := false }
    else s) s

/-- The removal of an expired purchase becomes durable: a new purchase of its title stays (R120). -/
def State.removeExpired (p : Purchase) (s : State) : State :=
  (s.onStore fun r =>
    { r with purchases := r.purchases.filter fun q => !(q.same p) || s.cur.purchases.any (·.same q) }).onBilling
    fun b => { b with expiryWrites := b.expiryWrites.erase p }

/-- EXPIRY_WRITE_COMPLETE (R120). -/
def execExpiryWriteComplete (t : Nat) (title : Nat) (s : State) : Out :=
  occurs t (fun s =>
    match s.billing.expiryWrites.find? fun p => p.title == title with
    | some p => s.removeExpired p
    | none => s) s

/-! ## Policy, rates and tiers (R46, R47, R118) -/

/-- A kept next policy is compared and written (R46). -/
def State.nextPolicy (s : State) : State :=
  match s.billing.policyNext with
  | some p => (s.onBilling fun b => { b with policyNext := none }).takePolicy p
  | none => s

/-- POLICY_WRITE_COMPLETE (R46). -/
def execPolicyWriteComplete (t : Nat) (s : State) : Out :=
  occurs t (fun s =>
    match s.billing.policyWrite with
    | some p =>
      let set := (s.durably fun r => { r with policy := p }).onBilling fun b => { b with policyWrite := none }
      ((set.judgeLapses (set.rerated s)).rerunAll).nextPolicy
    | none => s) s

/-- Kept next rates are compared and written (R47). -/
def State.nextRates (s : State) : State :=
  match s.billing.ratesNext with
  | some r => (s.onBilling fun b => { b with ratesNext := none }).takeRates r
  | none => s

/-- RATES_WRITE_COMPLETE (R47). -/
def execRatesWriteComplete (t : Nat) (s : State) : Out :=
  occurs t (fun s =>
    match s.billing.ratesWrite with
    | some x =>
      ((s.durably fun r => { r with rates := x }).onBilling fun b => { b with ratesWrite := none }).nextRates
    | none => s) s

/-- The next set is compared with the set in use, and written when it differs (R118). -/
def State.nextTiers (s : State) : State :=
  s.onBilling fun b =>
    { b with
      tierNext := none
      tierWrite :=
        match b.tierNext with
        | some set => if set = s.cur.tiers then none else some set
        | none => none }

/-- TIER_WRITE_COMPLETE (R118). -/
def execTierWriteComplete (t : Nat) (s : State) : Out :=
  occurs t (fun s =>
    match s.billing.tierWrite with
    | some set => ((s.durably fun r => { r with tiers := set }).nextTiers).rerunAll
    | none => s) s

/-! ## The journal's own writes (R154, R156) -/

def TurnWrite.isRelease : TurnWrite → Bool
  | .release .. => true
  | _ => false

/-- R12, told after a release: the settling folio ends, PROPERTY is raised, and a change of room state runs
every verdict (R3). -/
def State.judgeSettling (s : State) : State :=
  if settlingEnds s.cur.room s.cur.records then
    let ended := (s.durably (.onRoom .endSettling)).raise .property
    if s.cur.room.state = .settling then ended.rerunAll else ended
  else s

/-- The removals of a release, and the counts it carries, take effect (R156). -/
def State.dropReleased (numbers : List Nat) (cs : List Count) (s : State) : State :=
  (s.durably (.dropRecords numbers)).onStore fun r => { r with records := withCounts cs r.records }

/-- RELEASE_WRITE_COMPLETE (R12, R156): the armed flag is set, and the next waiting write begins, before the outputs
are run (logs 68 and 72). -/
def execReleaseWriteComplete (t : Nat) (s : State) : Out :=
  occurs t (fun s =>
    match takeBegun TurnWrite.isRelease false false s.turns with
    | some (.release numbers cs _, rest) =>
      let dropped := ((s.onTurns fun _ => rest).dropReleased numbers cs).occupancyFell.turnsAdvance
      (dropped.rerun dropped.moneySlated).judgeSettling
    | _ => s) s

/-- The next presentation write, where one is owed, falls due at the completion of the one before (R154; log 63). -/
def State.nextPresentation (s : State) : State :=
  if s.journal.presentationOwed then
    (s.onJournal fun j => { j with presentationOwed := false }).fallDue
      (.presentation (counts s.cur.records))
  else s.turnsAdvance

/-- PRESENTATION_WRITE_COMPLETE (R154). -/
def execPresentationWriteComplete (t : Nat) (s : State) : Out :=
  occurs t (fun s =>
    match takeBegun TurnWrite.isPresentation false false s.turns with
    | some (.presentation cs, rest) =>
      ((s.onTurns fun _ => rest).onStore fun r =>
        { r with records := withCounts cs r.records }).nextPresentation
    | _ => s) s

/-! ## The Key Store's writes (R53, R59) -/

/-- ACCESS_KEY_INSTALL_COMPLETE (R53). -/
def execAccessKeyInstallComplete (t : Nat) (group : Nat) (s : State) : Out :=
  occurs t (fun s =>
    match (s.keyGroup group).inFlight with
    | some (.install key) => (s.durably (.setAccessKey group (some key))).nextAccessOp group
    | _ => s) s

/-- The cell keys of a group are erased (R59). -/
def KeyGroup.erased (k : KeyGroup) : KeyGroup := { k with even := ⟨none, none⟩, odd := ⟨none, none⟩ }

/-- GROUP_REVOKE_COMPLETE (R59). -/
def execGroupRevokeComplete (t : Nat) (group : Nat) (s : State) : Out :=
  occurs t (fun s =>
    match (s.keyGroup group).inFlight with
    | some .revoke =>
      ((s.durably (.setAccessKey group none)).onKeyGroup group .erased).nextAccessOp group
    | _ => s) s

/-! ## SETTINGS_WRITE (R170) -/

/-- A changed high mark judges the armed flag, and raises nothing (R149). -/
def State.judgeArmed (old : Settings) (s : State) : State :=
  if s.cur.settings.highMark = old.highMark then s
  else s.onJournal fun j => { j with armed := decide (s.occupancy < s.cur.settings.highMark) }

/-- A changed power policy takes effect (R75). -/
def State.judgePower (old : Settings) (s : State) : State :=
  if s.cur.settings.power = old.power then s else s.powerPolicyChanged

/-- SETTINGS_WRITE_COMPLETE (R75, R149, R170). A changed probe interval moves the next probes (R95), and a
changed frame rate the boundaries after the next (R87), where those read the settings. -/
def execSettingsWriteComplete (t : Nat) (s : State) : Out :=
  occurs t (fun s =>
    match s.port.settings with
    | some x =>
      let set := (s.durably fun r => { r with settings := x }).onPort fun p => { p with settings := none }
      ((set.judgePower s.cur.settings).judgeArmed s.cur.settings).reply .ok (settingsField x)
    | none => s) s

end Sys2Proof.Machine
end

