-- ==== Sys2Proof/Machine/Line.lean ====
section
/-! DEFINITION. The meanings of the commands of power and of the set-port line (R153, R158 to R160, R163,
R175 to R178). -/

namespace Sys2Proof.Machine

/-! ## Power -/

/-- POWER_ON (R176 to R178). Applied to a part that has power, it is a power loss and its return
(log 1). -/
def execPowerOn (fastBaud maintenance : Bool) (boot : Boot) (s : State) : Out :=
  .next (s.powerUp fastBaud maintenance boot)

/-- START_UP_STAGE_5 (R178): due once every close of stage 4 has completed. -/
def execStartUpStage5 (t : Nat) (s : State) : Out :=
  occurs t (fun s =>
    if s.power = .starting ∧ s.cur.meter = [] then s.finishStartUp else s) s

/-- POWER_LOSS (R175, R178). -/
def execPowerLoss (s : State) : Out := .next (if s.power = .off then s else s.powerDown)

/-! ## Line breaks (R160) -/

/-- A request that has begun stays; the rest of the intake goes. -/
def Port.onlyBegun (p : Port) : List Request := if p.executing then p.intake.take 1 else []

/-- What a break makes of the port. -/
def Port.broken (p : Port) : Port :=
  { p with
    receiver := .hunt
    lineBreak := true
    intake := p.onlyBegun
    guestWaits := false
    outbound := []
    transmitter := .idle }

/-- A break in mid-frame first meets the gap of R159. -/
def State.breakGap (s : State) : State := if s.port.receiver.midFrame then s.dropFrame else s

/-- A break is detected: a FULL_RESET whose reply it discards or cuts short begins start-up (R178). -/
def State.breakLine (boot : Boot) (s : State) : State :=
  let broken := (s.breakGap.raise .link).onPort .broken
  if s.port.outbound.any (·.resets) then broken.fullReset boot else broken

/-- LINE_BREAK (R160). A closed port has no line to break (R158). -/
def execLineBreak (t : Nat) (boot : Boot) (s : State) : Out :=
  occurs t (fun s =>
    if s.port.opened = true ∧ s.port.lineBreak = false then s.breakLine boot else s) s

/-- LINE_BREAK_END (R160). -/
def execLineBreakEnd (t : Nat) (s : State) : Out :=
  occurs t (fun s => (s.onPort fun p => { p with lineBreak := false }).startSending) s

/-! ## Receiving (R159) -/

/-- FRAME_RECEIVED: characters arrive, one after another, up to a frame's last (R159, R161). -/
def execFrameReceived (t : Nat) (chars : List Byte) (s : State) : Out :=
  occurs t (fun s => chars.foldl (fun s c => s.arriveChar c) s) s

/-- FRAME_GAP_TIMEOUT (R159). -/
def execFrameGapTimeout (t : Nat) (s : State) : Out :=
  occurs t (fun s => if s.gap then s.dropFrame else s) s

/-- FRAME_BEGINS (R159): the sync value arrives in HUNT. -/
def execFrameBegins (t : Nat) (s : State) : Out :=
  occurs t (fun s => if s.port.receiver = .hunt then s.arriveChar frameSync else s) s

/-- The receiver waits for the length byte. -/
def Receiver.awaitsLength : Receiver → Bool
  | .frame [] => true
  | _ => false

/-- BAD_LENGTH (R159): a length byte outside 2..250. -/
def execBadLength (t : Nat) (length : Byte) (s : State) : Out :=
  occurs t (fun s =>
    if s.port.receiver.awaitsLength = true ∧ (length.toNat < 2 ∨ 250 < length.toNat) then
      s.arriveChar length
    else s) s

/-! ## Sending (R153, R163, R178) -/

/-- The oldest reply has left: a FULL_RESET's lets start-up begin, any other frees the transmitter. -/
def State.replySent (boot : Boot) (s : State) : State :=
  match s.port.outbound with
  | f :: fs =>
    let sent := s.onPort fun p => { p with outbound := fs, transmitter := .idle }
    if f.resets then sent.fullReset boot else sent.startSending
  | [] => s

/-- FRAME_TRANSMITTED (R163, R178). -/
def execFrameTransmitted (t : Nat) (boot : Boot) (s : State) : Out :=
  occurs t (fun s =>
    match s.port.transmitter with
    | .idle => s
    | .reply => s.replySent boot
    | .push _ => (s.onPort fun p => { p with transmitter := .idle }).startSending) s

/-- The transmitter is free for a pushed frame (R163). -/
def Port.freeToPush (p : Port) : Bool :=
  p.opened && !p.lineBreak && p.outbound.isEmpty && p.transmitter == .idle

/-- The frame of a presented record (R183). -/
def pushedFrame (r : ChargeRecord) : List Byte := frameBytes 0xE0 0 (recordField r.afterPresentation)

/-- CHARGE_PRESENTED (R153). -/
def execChargePresented (t : Nat) (s : State) : Out :=
  occurs t (fun s =>
    match s.recordAtCursor with
    | some r =>
      if s.journal.push && s.port.freeToPush then
        (s.present r).onPort fun p => { p with transmitter := .push (pushedFrame r) }
      else s
    | none => s) s

end Sys2Proof.Machine
end

