-- ==== Sys2Proof/Machine/Messages.lean ====
section
/-! DEFINITION. The meanings of the management messages: the receipt of the accepted message by its owner
(R41), and the steps in which a block takes what it held (R4, R102, R155). -/

namespace Sys2Proof.Machine

/-! ## Room Controller -/

/-- CHECK_IN (R4, R5, R6). -/
def execCheckIn (t : Nat) (s : State) : Out := occurs t (·.dispatch .checkIn .receiveRoom) s

/-- CHECK_OUT (R4, R7, R8). -/
def execCheckOut (t : Nat) (s : State) : Out := occurs t (·.dispatch .checkOut .receiveRoom) s

/-- SET_LIMIT (R4, R13). -/
def execSetLimit (t : Nat) (s : State) : Out := occurs t (·.dispatch .setLimit .receiveRoom) s

/-- SERVICE_OPEN (R4, R16). -/
def execServiceOpen (t : Nat) (s : State) : Out := occurs t (·.dispatch .serviceOpen .receiveRoom) s

/-- SERVICE_CLOSE (R4, R16). -/
def execServiceClose (t : Nat) (s : State) : Out := occurs t (·.dispatch .serviceClose .receiveRoom) s

/-- SUSPEND (R4, R14). -/
def execSuspend (t : Nat) (s : State) : Out := occurs t (·.dispatch .suspend .receiveRoom) s

/-- RESUME (R4, R14). -/
def execResume (t : Nat) (s : State) : Out := occurs t (·.dispatch .resume .receiveRoom) s

/-- LOCKDOWN (R4, R15). -/
def execLockdown (t : Nat) (s : State) : Out := occurs t (·.dispatch .lockdown .receiveRoom) s

/-- HELD_MESSAGE_TAKEN (R4): the Room Controller, not busy, takes its held list. -/
def execHeldMessageTaken (t : Nat) (s : State) : Out :=
  occurs t (fun s => if s.roomBusy then s else s.takeHeld s.room.held) s

/-! ## Rating Lock -/

/-- PIN_RESET (R102, R105). -/
def execPinReset (t : Nat) (s : State) : Out := occurs t (·.dispatch .pinReset .receiveLock) s

/-- SET_CEILING (R102, R103). -/
def execSetCeiling (t : Nat) (s : State) : Out := occurs t (·.dispatch .setCeiling .receiveLock) s

/-- BAR (R102, R103). -/
def execBar (t : Nat) (s : State) : Out := occurs t (·.dispatch .bar .receiveLock) s

/-- WAITING_MESSAGE_TAKEN (R102): the Rating Lock, not busy, takes its waiting list. -/
def execWaitingMessageTaken (t : Nat) (s : State) : Out :=
  occurs t (fun s => if s.lockBusy then s else s.takeWaiting s.lock.waiting) s

/-! ## Billing Unit -/

def State.takeGrant : MsgBody → State → State
  | .grantTier tier, s => s.takeTier tier true
  | _, s => s

/-- GRANT_TIER (R118). -/
def execGrantTier (t : Nat) (s : State) : Out := occurs t (·.dispatch .grantTier (.receive .takeGrant)) s

def State.takeRevocation : MsgBody → State → State
  | .revokeTier tier, s => s.takeTier tier false
  | _, s => s

/-- REVOKE_TIER (R118). -/
def execRevokeTier (t : Nat) (s : State) : Out :=
  occurs t (·.dispatch .revokeTier (.receive .takeRevocation)) s

def State.takeLineupBody : MsgBody → State → State
  | .lineup version index count records, s => s.takeLineup version index count records
  | _, s => s

/-- LINEUP (R42, R114 to R116). -/
def execLineup (t : Nat) (s : State) : Out := occurs t (·.dispatch .lineup (.receive .takeLineupBody)) s

def State.takeCatalogueBody : MsgBody → State → State
  | .catalogue version index count records, s => s.takeCatalogue version index count records
  | _, s => s

/-- CATALOGUE (R43, R117). -/
def execCatalogue (t : Nat) (s : State) : Out :=
  occurs t (·.dispatch .catalogue (.receive .takeCatalogueBody)) s

def State.takePolicyBody : MsgBody → State → State
  | .setPolicy p, s => s.takePolicy p
  | _, s => s

/-- SET_POLICY (R46). -/
def execSetPolicy (t : Nat) (s : State) : Out :=
  occurs t (·.dispatch .setPolicy (.receive .takePolicyBody)) s

def State.takeRatesBody : MsgBody → State → State
  | .setRates r, s => s.takeRates r
  | _, s => s

/-- SET_RATES (R47). -/
def execSetRates (t : Nat) (s : State) : Out := occurs t (·.dispatch .setRates (.receive .takeRatesBody)) s

/-! ## Key Store -/

/-- A key message whose check byte fails is dropped, counted, and KEY is raised (R48, R52). -/
def State.keyDropped (s : State) : State := s.countDrop.raise .key

/-- GROUP_KEY under the unit key (R52, R53). A part that takes one holds a unit key (R51). -/
def State.takeGroupKey : MsgBody → State → State
  | .groupKey g wrapped check, s =>
    match s.cur.unitKey with
    | some unit =>
      if checkByteOk (unwrap unit wrapped) check then
        s.takeAccessOp g (.install (keyOfBytes (unwrap unit wrapped)))
      else s.keyDropped
    | none => s
  | _, s => s

/-- GROUP_KEY (R53). -/
def execGroupKey (t : Nat) (s : State) : Out := occurs t (·.dispatch .groupKey (.receive .takeGroupKey)) s

def State.takeRevokeGroup : MsgBody → State → State
  | .revokeGroup g, s => s.takeAccessOp g .revoke
  | _, s => s

/-- REVOKE_GROUP (R59). -/
def execRevokeGroup (t : Nat) (s : State) : Out :=
  occurs t (·.dispatch .revokeGroup (.receive .takeRevokeGroup)) s

/-- A cell key for group g and parity p is judged against its record (R56). -/
def State.deliverKey (g : Nat) (p : Parity) (key : CellKey) (s : State) : State :=
  s.onKeyGroup g fun k => k.setSlot ((k.slot p).deliver (s.parityInUse g p) key) p

/-- The steps of R54. -/
def State.takeKeyDelivery : MsgBody → State → State
  | .keyDelivery g p e wrapped check, s =>
    match s.accessKey g with
    | some access =>
      if checkByteOk (unwrap access wrapped) check then
        s.deliverKey g p ⟨keyOfBytes (unwrap access wrapped), e⟩
      else s.keyDropped
    | none => s
  | _, s => s

/-- KEY_DELIVERY (R54, R56). -/
def execKeyDelivery (t : Nat) (s : State) : Out :=
  occurs t (·.dispatch .keyDelivery (.receive .takeKeyDelivery)) s

/-! ## Charge Journal, Timebase and Retained Store -/

def State.takeReleaseBody : MsgBody → State → State
  | .releaseCharges n, s => s.takeRelease n
  | _, s => s

/-- RELEASE_CHARGES (R155, R156). -/
def execReleaseCharges (t : Nat) (s : State) : Out :=
  occurs t (·.dispatch .releaseCharges (.receive .takeReleaseBody)) s

/-- KEPT_RELEASE_BEGIN (R155): the kept release is begun and becomes absent. -/
def execKeptReleaseBegin (t : Nat) (s : State) : Out :=
  occurs t (fun s =>
    match s.journal.kept with
    | some n =>
      if s.releaseFree then (s.onJournal fun j => { j with kept := none }).beginRelease n else s
    | none => s) s

def State.takeTimeBody : MsgBody → State → State
  | .setTime p, s => s.takeTime p
  | _, s => s

/-- SET_TIME (R45, R173, R174). -/
def execSetTime (t : Nat) (s : State) : Out := occurs t (·.dispatch .setTime (.receive .takeTimeBody)) s

/-- A FULL_RESET whose serial is not the one held begins its serial write (R49). -/
def State.takeFullReset : MsgBody → State → State
  | .fullReset serial, s =>
    if s.cur.resetSerial = some serial then s else s.onSerials (· ++ [serial])
  | _, s => s

/-- FULL_RESET_MESSAGE (R49). -/
def execFullResetMessage (t : Nat) (s : State) : Out :=
  occurs t (·.dispatch .fullReset (.receive .takeFullReset)) s

end Sys2Proof.Machine
end

