-- ==== Sys2Proof/Machine/Timers.lean ====
section
/-! DEFINITION. The meanings of the clocks and the deadlines: the tick (R88, R120, R121, R128, R137, R172,
R173) with what it leaves to be taken, the frame boundary (R86), and every deadline in monotonic time.
A deadline's command has no effect before its instant. -/

namespace Sys2Proof.Machine

/-- The most a count of seconds or blocks may be (R79, R119, R135). -/
def maxCount : Nat := 4294967295

/-- One more, up to the most a count may be. -/
def countUp (n : Nat) : Nat := min (n + 1) maxCount

/-! ## The tick -/

/-- Property time advances by one second, and the tick that brings it to the day start hour is a boundary
(R172, R173). -/
def State.tickTime (s : State) : State :=
  match s.time.property with
  | some p =>
    s.onTime fun c =>
      { c with
        property := some p.next
        boundaryDue := c.boundaryDue || decide (p.next.sec = s.cur.policy.dayStart * 3600) }
  | none => s

def OutState.isPlaying : OutState → Bool
  | .playing _ => true
  | _ => false

/-- An output whose shown state is PLAYING gains one play second (R88). -/
def Output.tick (x : Output) : Output :=
  if x.shown.isPlaying then { x with playSeconds := countUp x.playSeconds } else x

/-- The title of an output (R121). -/
def State.screenTitle (s : State) (x : Output) : Option Nat := x.route.bind s.titleOf

/-- The titles that outputs show with a basis (R121). -/
def State.titlesShown (s : State) (b : Basis) : List Nat :=
  distinct (s.router.outputs.toList.filterMap fun x =>
    if x.shown = .playing b then s.screenTitle x else none)

/-- Purchases whose title is shown PLAYING PURCHASE gain one play second (R121). -/
def countPlays (shown : List Nat) (ps : List Purchase) : List Purchase :=
  ps.map fun p => if shown.contains p.title then { p with play := countUp p.play } else p

/-- A preview record gains one second, and does not pass the allowance (R128). -/
def Preview.count (allowance : Nat) (p : Preview) : Preview :=
  if p.used < allowance then { p with used := p.used + 1 } else p

/-- The list without its oldest record of a title that is not being counted (R128). -/
def evictPreview (shown : List Nat) : List Preview → List Preview
  | [] => []
  | p :: ps => if shown.contains p.title then p :: evictPreview shown ps else ps

/-- A new preview record joins the list (R128). -/
def createPreview (allowance : Nat) (shown : List Nat) (l : List Preview) (t : Nat) : List Preview :=
  (if 32 ≤ l.length then evictPreview shown l else l) ++ [⟨t, min 1 allowance⟩]

/-- The titles shown that have no preview record. -/
def newTitles (shown : List Nat) (l : List Preview) : List Nat :=
  shown.filter fun t => !(l.any fun p => p.title == t)

/-- The preview list after a tick that counts the titles `shown`, of which `new` are created in order. -/
def countPreviews (allowance : Nat) (shown new : List Nat) (l : List Preview) : List Preview :=
  new.foldl (createPreview allowance shown)
    (l.map fun p => if shown.contains p.title then p.count allowance else p)

/-- The titles a tick brought to the allowance (R129). -/
def reachedAllowance (allowance : Nat) (before after : List Preview) : List Nat :=
  (after.filter fun p => p.used == allowance && !(before.contains p)).map (·.title)

/-- The viewing counts of a tick in an occupied room (R121, R128); the order in which several records are
created is free (log 4). -/
def State.countViewing (s : State) : State :=
  let played := s.titlesShown .purchase
  let shown := s.titlesShown .preview
  let new := newTitles shown s.cur.previews
  let several := decide (2 ≤ new.length)
  let allowance := s.cur.policy.preview
  let previews := countPreviews allowance shown (s.freeOrder several new) s.cur.previews
  let counted := s.onCur fun r =>
    { r with purchases := countPlays played r.purchases, previews := previews }
  let told := (counted.useOrder several).onBilling fun b =>
    { b with allowanceReached := b.allowanceReached ++ reachedAllowance allowance s.cur.previews previews }
  if counted.cur = s.cur then told else told.viewingChanged

/-- At least one output shows a service PLAYING METERED. -/
def State.showsMetered (s : State) (n : Nat) : Bool :=
  s.router.outputs.toList.any fun x => x.shown == .playing .metered && x.shownService == some n

/-- The counts of a session at a tick: a viewed second while it is shown, and the chargeable seconds less
the free seconds of its record; with no METERED record they stay as they stood (R137; log 60). -/
def Session.count (shown : Bool) (terms : Option MeterTerms) (x : Session) : Session :=
  match x.closing, terms with
  | none, some t =>
    let viewed := if shown then countUp x.viewed else x.viewed
    { x with viewed := viewed, chargeable := viewed - t.free }
  | _, _ => x

/-- A further block of a session is due (R138). -/
def Session.blockDue (t : MeterTerms) (x : Session) : Bool :=
  decide (x.blocks * 60 * t.minutes < x.chargeable)

/-- The accrual a tick leaves to be taken for a session (R138). -/
def State.accrualOf (s : State) (x : Session) : Option Accrual :=
  match x.closing, s.meterTerms x.service with
  | none, some t => if x.blockDue t then some ⟨x.service, t⟩ else none
  | _, _ => none

/-- A tick counts a viewed second of a session (R137). -/
def State.counts (s : State) (x : Session) : Bool :=
  x.closing.isNone && (s.meterTerms x.service).isSome && s.showsMetered x.service

/-- The metered counts of a tick, and the accruals it leaves (R137, R138). -/
def State.countMetered (s : State) : State :=
  let counted := s.onCur fun r =>
    { r with meter := r.meter.map fun x => x.count (s.showsMetered x.service) (s.meterTerms x.service) }
  let due := counted.cur.meter.filterMap counted.accrualOf
  let told := counted.onBilling fun b =>
    { b with accruals := b.accruals.filter (fun a => !(due.any fun d => d.service == a.service)) ++ due }
  if s.cur.meter.any s.counts then told.meterChanged else told

/-- A tick is taken by every block that counts time (R172). -/
def State.tick (s : State) : State :=
  let timed := (s.onTime fun c => { c with nextTick := c.nextTick + 1000 }).tickTime
  let played := timed.judgeExpiries.onOutputs .tick
  (if played.occupied then played.countViewing else played).countMetered

/-- TICK (R172). -/
def execTick (t : Nat) (s : State) : Out :=
  occurs t (fun s => if reached s.time.nextTick s then s.tick else s) s

/-! ## What a tick or a SET_TIME leaves -/

/-- An expired purchase leaves the table in use, its removal is written, and every verdict is run (R120). -/
def State.expire (p : Purchase) (s : State) : State :=
  ((s.onCur (.dropPurchase p.title)).onBilling fun b =>
    { b with expiryWrites := b.expiryWrites ++ [p] }).rerunAll

/-- PURCHASE_EXPIRY (R120): the purchase of a title was found expired, and no CANCEL of it is in flight. -/
def execPurchaseExpiry (t : Nat) (title : Nat) (s : State) : Out :=
  occurs t (fun s =>
    match s.billing.expired.find? fun p => p.title == title with
    | some p =>
      if s.cancelling title then s
      else
        let taken := s.onBilling fun b => { b with expired := b.expired.erase p }
        match s.cur.purchases.find? (·.same p) with
        | some q => taken.expire q
        | none => taken
    | none => s) s

/-- The limit test of a block: S, the pending charge and A with the block in it, against L (R133). -/
def State.blockFits (s : State) (x : Session) (net : Nat) : Bool :=
  decide (s.cur.room.spend + s.room.pendingCharge +
    accruedTotal (s.cur.meter.map fun y => if y.service == x.service then { y with net := y.net + net } else y)
      ≤ s.cur.room.limit)

/-- A block accrues (R138). -/
def State.accrue (x : Session) (net : Nat) (s : State) : State :=
  ((s.onCur (.onSession x.service fun y =>
    { y with blocks := countUp y.blocks, net := y.net + net })).addDaySpend x.service net).meterChanged

/-- The accrual of a session has been taken. -/
def State.endAccrual (n : Nat) (s : State) : State :=
  s.onBilling fun b => { b with accruals := b.accruals.filter (·.service != n) }

/-- A due block is tested, and accrued or refused (R138, R139). -/
def State.judgeBlock (x : Session) (terms : MeterTerms) (s : State) : State :=
  let net := blockNet terms (s.daySpendOf x.service)
  if s.blockFits x net then
    let accrued := s.accrue x net
    match accrued.session x.service with
    | some y => if y.blockDue terms then accrued else accrued.endAccrual x.service
    | none => accrued
  else
    let closing := s.beginClose x.service .limit
    closing.rerun (closing.routedTo x.service)

/-- BLOCK_ACCRUAL (R138, R139). -/
def execBlockAccrual (t : Nat) (service : Nat) (s : State) : Out :=
  occurs t (fun s =>
    match s.billing.accruals.find? fun a => a.service == service, s.session service with
    | some a, some x =>
      if x.closing.isNone && x.blockDue a.terms then s.judgeBlock x a.terms else s.endAccrual service
    | _, _ => s) s

/-- PREVIEW_ALLOWANCE_REACHED (R129). -/
def execPreviewAllowanceReached (t : Nat) (title : Nat) (s : State) : Out :=
  occurs t (fun s =>
    if s.billing.allowanceReached.contains title then
      (s.onBilling fun b => { b with allowanceReached := b.allowanceReached.erase title }).rerunAll
    else s) s

/-- The day-spend table is emptied, durably by a meter write (R143). -/
def State.emptyDaySpend (s : State) : State :=
  if s.cur.daySpend = [] then s else (s.onCur fun r => { r with daySpend := [] }).meterChanged

/-- DAY_BOUNDARY (R143, R173). -/
def execDayBoundary (t : Nat) (s : State) : Out :=
  occurs t (fun s =>
    if s.time.boundaryDue then (s.onTime fun c => { c with boundaryDue := false }).emptyDaySpend else s) s

/-! ## The frame boundary (R86 to R88, R110, R140) -/

/-- The shown state takes the decided state (R86). -/
def Output.show (x : Output) : Output := { x with shown := x.decided, shownService := x.route }

/-- The number of outputs whose shown state changes at a boundary (R88). -/
def changedShown (before after : Four Output) : Nat :=
  ((before.toList.zip after.toList).filter fun p => p.1.shown != p.2.shown).length

/-- An output shows another state, or a state on another service, than before (log 18). -/
def State.showsAnew (s before : State) (o : Screen) : Bool :=
  (s.output o).shown != (before.output o).shown || (s.output o).shownService != (before.output o).shownService

/-- A session goes between PLAYING and IDLE (R140). -/
def Session.follow (now : Nat) (shown : Bool) (x : Session) : Session :=
  if shown then
    if x.idle then { x with idle := false, rejoin := none } else x
  else if x.idle then x
  else { x with idle := true, rejoin := some (now + 120000) }

/-- The sessions that go IDLE at a boundary. -/
def State.goingIdle (s : State) : List Nat :=
  (s.cur.meter.filter fun x => !x.idle && !s.showsMetered x.service).map (·.service)

/-- The outputs routed to a service, and those slated JOURNAL_FULL (R85). -/
def State.routedOrFull (s : State) (ns : List Nat) : List Screen :=
  allScreens.filter fun o =>
    (match (s.output o).route with
      | some n => ns.contains n
      | none => false) || (s.output o).decided == .slate .journalFull

/-- Meter sessions follow what is shown (R137, R140). -/
def State.judgeSessions (s : State) : State :=
  let followed := s.onCur fun r =>
    { r with meter := r.meter.map fun x => x.follow s.now (s.showsMetered x.service) }
  let written := if followed.cur.meter = s.cur.meter then followed else followed.meterChanged
  if s.goingIdle = [] then written else written.rerun (written.routedOrFull s.goingIdle)

/-- What follows a boundary that changes what some outputs show: the lapses of the unlocks that cover one of them,
and, after them, the sessions, are judged (R110, R140; the order is log 61's choice). -/
def State.judgeShown (changed : Screen → Bool) (s : State) : State := (s.judgeLapses changed).judgeSessions

/-- A boundary with the outputs released (R86, R88). -/
def State.showAll (s : State) : State :=
  let shown := s.onOutputs .show
  let told := shown.raiseTimes .route (changedShown s.router.outputs shown.router.outputs)
  if allScreens.any (shown.showsAnew s) then told.judgeShown (shown.showsAnew s) else told

/-- The next boundary is due one interval on (R87). -/
def State.nextBoundary (s : State) : State :=
  s.onTime fun c => { c with nextFrame := c.nextFrame + frameInterval s.cur.settings.frameRate }

/-- FRAME_BOUNDARY (R86): while the outputs are dark nothing is shown (R97). -/
def execFrameBoundary (t : Nat) (s : State) : Out :=
  occurs t (fun s =>
    if s.time.nextFrame ≤ 3 * s.now then
      if s.router.dark then s.nextBoundary else s.nextBoundary.showAll
    else s) s

/-! ## Cell Front deadlines (R26, R29) -/

/-- NO_SIGNAL_DEADLINE (R26). -/
def execNoSignalDeadline (t : Nat) (service : Nat) (s : State) : Out :=
  occurs t (fun s =>
    match s.programme service with
    | some p =>
      if !p.noSignal && reached p.noSignalAt s then
        let set := s.onProgramme service fun p => { p with noSignal := true }
        set.rerun (set.routedTo service)
      else s
    | none => s) s

/-- STALENESS_DEADLINE (R29, R30). -/
def execStalenessDeadline (t : Nat) (service : Nat) (s : State) : Out :=
  occurs t (fun s =>
    match s.programme service with
    | some p =>
      if due p.staleAt s then
        (s.onProgramme service fun p => { p with rating := none, staleAt := none }).programmeChanged service s
      else s
    | none => s) s

/-! ## Engine deadlines (R63, R64, R73, R74) -/

/-- NO_KEY_DEADLINE (R63, R64). -/
def execNoKeyDeadline (t : Nat) (engine : EngineId) (s : State) : Out :=
  occurs t (fun s =>
    match s.engine engine with
    | .active n last (some d) =>
      if reached d s then
        let set := (s.setEngine engine (.active n last none)).raise .key
        set.rerun (set.routedTo n)
      else s
    | _ => s) s

/-- WARM_UP_END (R73). -/
def execWarmUpEnd (t : Nat) (engine : EngineId) (s : State) : Out :=
  occurs t (fun s =>
    match s.engine engine with
    | .warming _ d =>
      if reached d s then (s.endWarmUp engine).1.promoteKeys.rerun (s.endWarmUp engine).2 else s
    | _ => s) s

/-- IDLE_DEADLINE (R74). -/
def execIdleDeadline (t : Nat) (engine : EngineId) (s : State) : Out :=
  occurs t (fun s =>
    match s.engine engine with
    | .ready d => if due d s then s.setEngine engine .off else s
    | _ => s) s

/-! ## Router deadlines (R84, R94 to R96) -/

/-- NO_TITLE_DEADLINE (R84). -/
def execNoTitleDeadline (t : Nat) (screen : Screen) (s : State) : Out :=
  occurs t (fun s =>
    if due (s.output screen).noTitleAt s then
      (s.onOutput screen fun x => { x with noTitleAt := none, noInfo := true }).rerun [screen]
    else s) s

/-- ROUTE_HOLD_DEADLINE (R94). -/
def execRouteHoldDeadline (t : Nat) (s : State) : Out :=
  occurs t (fun s => if due s.router.hold s then s.endHold else s) s

/-- What a probe finds, before its effect (R95). -/
def Output.probed (now : Nat) (display : Bool) (x : Output) : Output :=
  { x with
    probedAt := now
    candidate := if x.present = display then 0 else x.candidate + 1 }

/-- A change of presence (R95, R96). -/
def State.changePresence (o : Screen) (display : Bool) (s : State) : State :=
  (((s.onOutput o (.setPresence display)).raise .screen).refilter).rerun [o]

/-- A probe is taken (R95). -/
def State.probe (o : Screen) (display : Bool) (s : State) : State :=
  let probed := s.onOutput o (.probed s.now display)
  if 2 ≤ (probed.output o).candidate then probed.changePresence o display else probed

/-- PRESENCE_PROBE (R95): due one probe interval after the output's previous probe. -/
def execPresenceProbe (t : Nat) (screen : Screen) (display : Bool) (s : State) : Out :=
  occurs t (fun s =>
    if reached ((s.output screen).probedAt + s.cur.settings.probe * 1000) s then s.probe screen display
    else s) s

/-! ## Lock deadlines (R109, R110) -/

/-- The unlock of a screen, or with none the room unlock. -/
def State.unlockOf (s : State) : Option Screen → Option Unlock
  | some o => s.lock.screens.get o
  | none => s.lock.room

/-- The outputs an unlock covers (R101). -/
def coveredBy : Option Screen → List Screen
  | some o => [o]
  | none => allScreens

/-- The unlock's lapse is deferred (R110). -/
def State.deferUnlock (which : Option Screen) (s : State) : State :=
  s.onLock fun l =>
    match which with
    | none => { l with room := l.room.map fun u => { u with deferred := true } }
    | some o =>
      { l with screens := l.screens.set ((l.screens.get o).map fun u => { u with deferred := true }) o }

/-- An unlock's end instant is judged (R110). -/
def State.endUnlock (which : Option Screen) (s : State) : State :=
  if (coveredBy which).any s.showsAbove then s.deferUnlock which
  else ((s.dropUnlock which).raise .lock).rerunAll

/-- UNLOCK_END_INSTANT (R110). -/
def execUnlockEndInstant (t : Nat) (screen : Option Screen) (s : State) : Out :=
  occurs t (fun s =>
    match s.unlockOf screen with
    | some u => if !u.deferred && reached u.endAt s then s.endUnlock screen else s
    | none => s) s

/-- A lockout ends at its deadline: in use at once, and durably by a write of its own (R109). -/
def State.endLockout (s : State) : State :=
  let ended := ((s.onCur (.onLock fun l => { l with running := false })).onLock fun l =>
    { l with lockoutAt := none }).raise .lock
  if ended.lockBusy then ended.onLock fun l => { l with clearOwed := true }
  else ended.beginLockWrite .lockoutClear

/-- LOCKOUT_DEADLINE (R109). -/
def execLockoutDeadline (t : Nat) (s : State) : Out :=
  occurs t (fun s => if due s.lock.lockoutAt s then s.endLockout else s) s

/-! ## Meter and room deadlines (R16, R140) -/

/-- REJOIN_EXPIRY (R140): the close begins, and the outputs on the service are run. -/
def execRejoinExpiry (t : Nat) (service : Nat) (s : State) : Out :=
  occurs t (fun s =>
    match s.session service with
    | some x =>
      if x.idle && x.closing.isNone && due x.rejoin s then
        let closing := s.beginClose service .expiry
        closing.rerun (closing.routedTo service)
      else s
    | none => s) s

/-- MAINTENANCE_WINDOW_END (R16). -/
def execMaintenanceWindowEnd (t : Nat) (s : State) : Out :=
  occurs t (fun s => if due s.room.windowEnd s then s.closeWindow else s) s

end Sys2Proof.Machine
end

