-- ==== Sys2Proof/Machine/Dispatch.lean ====
section
/-! DEFINITION. One arm per command: each calls its meaning. -/

namespace Sys2Proof.Machine

def exec (i : Instr) (s : State) : Host.Outcome State Fault Refusal :=
  match i with
  | .powerOn fastBaud maintenance boot => Sys2Proof.Machine.execPowerOn fastBaud maintenance boot s
  | .startUpStage5 t => Sys2Proof.Machine.execStartUpStage5 t s
  | .lineBreak t boot => Sys2Proof.Machine.execLineBreak t boot s
  | .lineBreakEnd t => Sys2Proof.Machine.execLineBreakEnd t s
  | .frameReceived t chars => Sys2Proof.Machine.execFrameReceived t chars s
  | .frameGapTimeout t => Sys2Proof.Machine.execFrameGapTimeout t s
  | .frameTransmitted t boot => Sys2Proof.Machine.execFrameTransmitted t boot s
  | .chargePresented t => Sys2Proof.Machine.execChargePresented t s
  | .status t => Sys2Proof.Machine.execStatus t s
  | .screenStatus t => Sys2Proof.Machine.execScreenStatus t s
  | .lineupRead t => Sys2Proof.Machine.execLineupRead t s
  | .catalogueRead t => Sys2Proof.Machine.execCatalogueRead t s
  | .readEvents t => Sys2Proof.Machine.execReadEvents t s
  | .clearEvents t => Sys2Proof.Machine.execClearEvents t s
  | .setEventMask t => Sys2Proof.Machine.execSetEventMask t s
  | .journalRead t => Sys2Proof.Machine.execJournalRead t s
  | .journalRewind t => Sys2Proof.Machine.execJournalRewind t s
  | .journalMode t => Sys2Proof.Machine.execJournalMode t s
  | .settingsRead t => Sys2Proof.Machine.execSettingsRead t s
  | .tune t => Sys2Proof.Machine.execTune t s
  | .screenOff t => Sys2Proof.Machine.execScreenOff t s
  | .routeHold t => Sys2Proof.Machine.execRouteHold t s
  | .routeRelease t => Sys2Proof.Machine.execRouteRelease t s
  | .relock t => Sys2Proof.Machine.execRelock t s
  | .quote t => Sys2Proof.Machine.execQuote t s
  | .buy t => Sys2Proof.Machine.execBuy t s
  | .cancel t => Sys2Proof.Machine.execCancel t s
  | .unlock t => Sys2Proof.Machine.execUnlock t s
  | .setPin t => Sys2Proof.Machine.execSetPin t s
  | .restartStreams t => Sys2Proof.Machine.execRestartStreams t s
  | .settingsWrite t => Sys2Proof.Machine.execSettingsWrite t s
  | .provision t => Sys2Proof.Machine.execProvision t s
  | .fullReset t => Sys2Proof.Machine.execFullReset t s
  | .unknownRequest t => Sys2Proof.Machine.execUnknownRequest t s
  | .mediaCell t cell => Sys2Proof.Machine.execMediaCell t cell s
  | .descriptorCell t cell => Sys2Proof.Machine.execDescriptorCell t cell s
  | .managementCell t cell => Sys2Proof.Machine.execManagementCell t cell s
  | .filler t cell => Sys2Proof.Machine.execFiller t cell s
  | .checkIn t => Sys2Proof.Machine.execCheckIn t s
  | .checkOut t => Sys2Proof.Machine.execCheckOut t s
  | .setLimit t => Sys2Proof.Machine.execSetLimit t s
  | .serviceOpen t => Sys2Proof.Machine.execServiceOpen t s
  | .serviceClose t => Sys2Proof.Machine.execServiceClose t s
  | .pinReset t => Sys2Proof.Machine.execPinReset t s
  | .setCeiling t => Sys2Proof.Machine.execSetCeiling t s
  | .bar t => Sys2Proof.Machine.execBar t s
  | .grantTier t => Sys2Proof.Machine.execGrantTier t s
  | .revokeTier t => Sys2Proof.Machine.execRevokeTier t s
  | .groupKey t => Sys2Proof.Machine.execGroupKey t s
  | .revokeGroup t => Sys2Proof.Machine.execRevokeGroup t s
  | .releaseCharges t => Sys2Proof.Machine.execReleaseCharges t s
  | .setTime t => Sys2Proof.Machine.execSetTime t s
  | .lineup t => Sys2Proof.Machine.execLineup t s
  | .catalogue t => Sys2Proof.Machine.execCatalogue t s
  | .keyDelivery t => Sys2Proof.Machine.execKeyDelivery t s
  | .setPolicy t => Sys2Proof.Machine.execSetPolicy t s
  | .setRates t => Sys2Proof.Machine.execSetRates t s
  | .suspend t => Sys2Proof.Machine.execSuspend t s
  | .resume t => Sys2Proof.Machine.execResume t s
  | .lockdown t => Sys2Proof.Machine.execLockdown t s
  | .fullResetMessage t => Sys2Proof.Machine.execFullResetMessage t s
  | .heldMessageTaken t => Sys2Proof.Machine.execHeldMessageTaken t s
  | .waitingMessageTaken t => Sys2Proof.Machine.execWaitingMessageTaken t s
  | .keptReleaseBegin t => Sys2Proof.Machine.execKeptReleaseBegin t s
  | .newFolioWriteComplete t => Sys2Proof.Machine.execNewFolioWriteComplete t s
  | .folioUpdateWriteComplete t => Sys2Proof.Machine.execFolioUpdateWriteComplete t s
  | .limitWriteComplete t => Sys2Proof.Machine.execLimitWriteComplete t s
  | .suspendWriteComplete t => Sys2Proof.Machine.execSuspendWriteComplete t s
  | .resumeWriteComplete t => Sys2Proof.Machine.execResumeWriteComplete t s
  | .lockdownWriteComplete t => Sys2Proof.Machine.execLockdownWriteComplete t s
  | .checkoutClearingComplete t => Sys2Proof.Machine.execCheckoutClearingComplete t s
  | .provisionWriteComplete t => Sys2Proof.Machine.execProvisionWriteComplete t s
  | .resetSerialWriteComplete t serial boot => Sys2Proof.Machine.execResetSerialWriteComplete t serial boot s
  | .ceilingWriteComplete t => Sys2Proof.Machine.execCeilingWriteComplete t s
  | .barWriteComplete t => Sys2Proof.Machine.execBarWriteComplete t s
  | .pinResetWriteComplete t => Sys2Proof.Machine.execPinResetWriteComplete t s
  | .setPinWriteComplete t => Sys2Proof.Machine.execSetPinWriteComplete t s
  | .pinFailureWriteComplete t => Sys2Proof.Machine.execPinFailureWriteComplete t s
  | .unlockWriteComplete t => Sys2Proof.Machine.execUnlockWriteComplete t s
  | .lockoutClearWriteComplete t => Sys2Proof.Machine.execLockoutClearWriteComplete t s
  | .buyWriteComplete t => Sys2Proof.Machine.execBuyWriteComplete t s
  | .cancelWriteComplete t => Sys2Proof.Machine.execCancelWriteComplete t s
  | .meterCloseComplete t service => Sys2Proof.Machine.execMeterCloseComplete t service s
  | .meterWriteComplete t => Sys2Proof.Machine.execMeterWriteComplete t s
  | .viewingWriteComplete t => Sys2Proof.Machine.execViewingWriteComplete t s
  | .expiryWriteComplete t title => Sys2Proof.Machine.execExpiryWriteComplete t title s
  | .policyWriteComplete t => Sys2Proof.Machine.execPolicyWriteComplete t s
  | .ratesWriteComplete t => Sys2Proof.Machine.execRatesWriteComplete t s
  | .tierWriteComplete t => Sys2Proof.Machine.execTierWriteComplete t s
  | .releaseWriteComplete t => Sys2Proof.Machine.execReleaseWriteComplete t s
  | .presentationWriteComplete t => Sys2Proof.Machine.execPresentationWriteComplete t s
  | .accessKeyInstallComplete t group => Sys2Proof.Machine.execAccessKeyInstallComplete t group s
  | .groupRevokeComplete t group => Sys2Proof.Machine.execGroupRevokeComplete t group s
  | .settingsWriteComplete t => Sys2Proof.Machine.execSettingsWriteComplete t s
  | .tick t => Sys2Proof.Machine.execTick t s
  | .purchaseExpiry t title => Sys2Proof.Machine.execPurchaseExpiry t title s
  | .blockAccrual t service => Sys2Proof.Machine.execBlockAccrual t service s
  | .previewAllowanceReached t title => Sys2Proof.Machine.execPreviewAllowanceReached t title s
  | .dayBoundary t => Sys2Proof.Machine.execDayBoundary t s
  | .frameBoundary t => Sys2Proof.Machine.execFrameBoundary t s
  | .noSignalDeadline t service => Sys2Proof.Machine.execNoSignalDeadline t service s
  | .stalenessDeadline t service => Sys2Proof.Machine.execStalenessDeadline t service s
  | .noKeyDeadline t engine => Sys2Proof.Machine.execNoKeyDeadline t engine s
  | .warmUpEnd t engine => Sys2Proof.Machine.execWarmUpEnd t engine s
  | .idleDeadline t engine => Sys2Proof.Machine.execIdleDeadline t engine s
  | .noTitleDeadline t screen => Sys2Proof.Machine.execNoTitleDeadline t screen s
  | .routeHoldDeadline t => Sys2Proof.Machine.execRouteHoldDeadline t s
  | .presenceProbe t screen display => Sys2Proof.Machine.execPresenceProbe t screen display s
  | .unlockEndInstant t screen => Sys2Proof.Machine.execUnlockEndInstant t screen s
  | .lockoutDeadline t => Sys2Proof.Machine.execLockoutDeadline t s
  | .rejoinExpiry t service => Sys2Proof.Machine.execRejoinExpiry t service s
  | .maintenanceWindowEnd t => Sys2Proof.Machine.execMaintenanceWindowEnd t s
  | .frameBegins t => Sys2Proof.Machine.execFrameBegins t s
  | .badLength t length => Sys2Proof.Machine.execBadLength t length s
  | .powerLoss => Sys2Proof.Machine.execPowerLoss s

end Sys2Proof.Machine
end

