-- ==== Sys2Proof/Safety.lean ====
section
/-! DEFINITION. The terms in which the statements speak: what a run of verdicts can change and what it
leaves, when a request or a message is taken, and the laws that every step keeps. -/

namespace Sys2Proof.Machine

/-! ## What runs of verdicts change (R81 to R85, R136) -/

/-- What runs of verdicts make of the meter table: a session that stands may begin to close, evicted; the
sessions that join are new. -/
def MeterRan (old new : List Session) : Prop :=
  ∃ kept opened, new = kept ++ opened ∧
    List.Forall₂ (fun x y => y = x ∨ x.closing = none ∧ y = { x with closing := some .eviction }) old kept ∧
    ∀ y ∈ opened, y.viewed = 0 ∧ y.chargeable = 0 ∧ y.blocks = 0 ∧ y.net = 0 ∧ y.idle = true ∧
      (y.closing = none ∨ y.closing = some .eviction)

/-- What runs of verdicts make of the queue of writes: a meter write at its turn takes its image; the writes
that join are meter writes and closes. -/
def TurnsRan (old new : List TurnWrite) : Prop :=
  ∃ begun joined, new = begun ++ joined ∧
    List.Forall₂ (fun w v => v = w ∨ w = .meter none ∧ ∃ image, v = .meter (some image)) old begun ∧
    ∀ w ∈ joined, w.isMeter = true ∨ ∃ n stamp charged, w = .close n stamp charged

/-- What runs of verdicts make of a key group: pending keys are promoted (R57). -/
def KeysRan (old new : List KeyGroup) : Prop :=
  List.Forall₂ (fun k k' => ∃ evenUsed oddUsed, k' = k.promote evenUsed oddUsed) old new

/-- What runs of verdicts leave of an output. -/
def Output.sameRoute (x y : Output) : Prop :=
  y.route = x.route ∧ y.staged = x.staged ∧ y.present = x.present ∧ y.candidate = x.candidate ∧
    y.probedAt = x.probedAt ∧ y.shown = x.shown ∧ y.shownService = x.shownService ∧
    y.playSeconds = x.playSeconds ∧ y.content = x.content

/-- `s'` is `s` but for what runs of verdicts change: the verdict results of the outputs, the engine pool,
promoted keys, meter sessions that open or are evicted with the writes they owe, and the armed flag. -/
structure Apart (s s' : State) : Prop where
  power : s'.power = s.power
  time : s'.time = s.time
  cur : s'.cur = { s.cur with meter := s'.cur.meter, reserved := s'.cur.reserved }
  meter : MeterRan s.cur.meter s'.cur.meter
  reserved : s'.cur.reserved + s.cur.meter.length = s.cur.reserved + s'.cur.meter.length
  store : s'.store = s.store
  room : s'.room = s.room
  cells : s'.cells = s.cells
  decoder : s'.decoder = s.decoder
  keys : KeysRan s.keys s'.keys
  hold : s'.router.hold = s.router.hold
  dark : s'.router.dark = s.router.dark
  outputs : ∀ o, (s.output o).sameRoute (s'.output o)
  billing : s'.billing =
    { s.billing with accruals := s'.billing.accruals, meterOwed := s'.billing.meterOwed }
  accruals : s'.billing.accruals.Sublist s.billing.accruals
  turns : TurnsRan s.turns s'.turns
  journal : s'.journal = { s.journal with armed := s'.journal.armed }
  armed : s'.journal.armed = true → s.journal.armed = true
  serials : s'.serials = s.serials
  pending : s'.pending = s.pending

/-- Only runs of verdicts lie between `s` and `s'`: beside what `Apart` allows, JOURNAL HIGH may be raised
(R149). -/
structure OnlyVerdicts (s s' : State) : Prop extends Apart s s' where
  lock : s'.lock = s.lock
  port : s'.port =
    { s.port with events := { s.port.events with journalHigh := s'.port.events.journalHigh } }

/-- An unlock as it was, or a deferred one that has lapsed (R110). -/
def Lapsed (u u' : Option Unlock) : Prop := u' = u ∨ u' = none ∧ ∃ x, u = some x ∧ x.deferred = true

/-- Only lapses of deferred unlocks and runs of verdicts lie between `s` and `s'` (R110). -/
structure OnlyLapses (s s' : State) : Prop extends Apart s s' where
  lock : s'.lock = { s.lock with room := s'.lock.room, screens := s'.lock.screens }
  roomUnlock : Lapsed s.lock.room s'.lock.room
  screenUnlock : ∀ o, Lapsed (s.lock.screens.get o) (s'.lock.screens.get o)
  port : s'.port =
    { s.port with events :=
        { s.port.events with
          lock := s'.port.events.lock
          journalHigh := s'.port.events.journalHigh } }

/-- The verdicts of some outputs were re-run, and nothing else happened (R85). -/
structure Reran (outs : List Screen) (s s' : State) : Prop extends OnlyVerdicts s s' where
  run : s' = s.rerun outs

/-- The deferred lapses of the unlocks that cover an output the event concerns were judged, then the verdicts of
some outputs re-run, and nothing else happened (R85, R110). -/
structure LapsedAndReran (concerned : Screen → Bool) (outs : List Screen) (s s' : State) : Prop
    extends OnlyLapses s s' where
  run : s' = (s.judgeLapses concerned).rerun outs

/-! ## When a command is taken -/

/-- The request at the head of the intake begins as one of kind `kind`, in a mode that takes its group and
with a body of its length (R17, R162). -/
structure Begins (kind : Nat) (group : Group) (s : State) (r : Request) : Prop where
  powered : s.power ≠ .off
  head : s.port.intake.head? = some r
  ofKind : r.kind.toNat = kind
  free : s.canBegin = true
  notHeld : s.heldBack r.kind = false
  mode : s.modeTakes group = true
  length : r.body.length = requestLength r.body kind

/-- A message of this scope, issue number and body awaits its owner (R41). -/
structure Awaits (s : State) (scope : Scope) (issue : Nat) (body : MsgBody) : Prop where
  powered : s.power ≠ .off
  accepted : s.decoder.accepted = some ⟨scope, issue, body⟩

/-- The part at instant `t`, the message received by its owner: its issue number is recorded when its kind is
under the issue table (R40, R41). -/
def State.receiving (scope : Scope) (issue : Nat) (body : MsgBody) (t : Nat) (s : State) : State :=
  { s.atInstant t with
    decoder :=
      { s.decoder with
        accepted := none
        issues :=
          if body.kind.numbered then
            ⟨body.kind, scope, issue⟩ ::
              s.decoder.issues.filter fun e => !(e.kind == body.kind && e.scope == scope)
          else s.decoder.issues } }

/-- The part at instant `t`, the message discarded by its owner and counted (R4, R39, R102). -/
def State.discarding (t : Nat) (s : State) : State :=
  { s.atInstant t with
    decoder := { s.decoder with accepted := none, drops := min (s.decoder.drops + 1) 65535 } }

/-- An unlock is granted at an instant: the room's, or that of a screen, numbered from 1 (R107). -/
def Lock.granted (room : Bool) (screen now : Nat) (p : Policy) (l : Lock) : Lock :=
  if room then { l with room := some ⟨now + p.roomUnlockHours * 3600000, false⟩ }
  else
    { l with screens :=
      let u : Option Unlock := some ⟨now + p.unlockMinutes * 60000, false⟩
      ⟨if screen = 1 then u else l.screens.one, if screen = 2 then u else l.screens.two,
        if screen = 3 then u else l.screens.three, if screen = 4 then u else l.screens.four⟩ }

/-! ## The laws every step keeps -/

/-- A meter table as a write or the part holds it: one session a service, at most four, a reservation for
each (R135, R148). -/
def MeterLaw (meter : List Session) (reserved : Nat) : Prop :=
  (meter.map (·.service)).Nodup ∧ meter.length ≤ 4 ∧ reserved = meter.length

/-- Every meter table of the part is lawful: in use, in the store, and in the writes in flight. -/
def State.MeterLaw (s : State) : Prop :=
  Machine.MeterLaw s.cur.meter s.cur.reserved ∧ Machine.MeterLaw s.store.meter s.store.reserved ∧
    ∀ image, TurnWrite.meter (some image) ∈ s.turns → Machine.MeterLaw image.meter image.reserved

/-- The services engines are bound to. -/
def State.boundServices (s : State) : List Nat := s.pool.engines.toList.filterMap Engine.bound

/-- No service has two engines, no service that has one or waits already waits, and nothing waits while an
engine is free (R69, R70). -/
def State.BindingLaw (s : State) : Prop :=
  s.boundServices.Nodup ∧
    (s.pool.wait.map (·.service)).Nodup ∧
    (∀ w ∈ s.pool.wait, w.service ∉ s.boundServices) ∧
    (s.pool.wait ≠ [] → ∀ e, (s.engine e).bound.isSome = true)

/-- The in-use services, those a present output routes to, are the ones with a programme record, one each
(R21, R24). -/
def State.FilterLaw (s : State) : Prop :=
  (s.cells.programmes.map (·.service)).Nodup ∧
    ∀ n, (s.programme n).isSome = true ↔ ∃ o, (s.output o).present = true ∧ (s.output o).route = some n

/-- A pending cell key stands only beside a current key, for a parity that is in use (R50, R57). -/
def State.KeyLaw (s : State) : Prop :=
  ∀ g p, ((s.keyGroup g).slot p).pending.isSome = true →
    ((s.keyGroup g).slot p).current.isSome = true ∧ s.parityInUse g p = true

/-- The lineup is in ascending order of service number, no two services share a channel position, and it
keeps its two bounds (R115). -/
def LineupLaw (l : List Service) : Prop :=
  l.Pairwise (fun x y => x.number < y.number) ∧ (l.map (·.position)).Nodup ∧ l.length ≤ 96 ∧
    meteredCount l ≤ 8

/-- The catalogue is in ascending order of title id and keeps its bound (R117). -/
def CatalogueLaw (l : List Title) : Prop :=
  l.Pairwise (fun x y => x.title < y.title) ∧ l.length ≤ 64

/-- The records of a journal are numbered in ascending order from 1 on, below the next number (R147). -/
def JournalLaw (r : Retained) : Prop :=
  1 ≤ r.nextNumber ∧ (r.records.map (·.number)).Pairwise (· < ·) ∧
    ∀ x ∈ r.records, 1 ≤ x.number ∧ x.number < r.nextNumber

/-- The room record in use is the durable one; a folio is open exactly while the room is OCCUPIED, and a
SETTLING room has a settling folio (R1, R4, R9). -/
def State.RoomLaw (s : State) : Prop :=
  s.cur.room = s.store.room ∧ (s.cur.room.state = .occupied ↔ s.cur.room.folio.isSome = true) ∧
    (s.cur.room.state = .settling → s.cur.room.settling.isSome = true)

/-- What the queues and counters of the part hold at most (R4, R39, R102, R161, R163, R164). -/
def State.Bounds (s : State) : Prop :=
  s.port.intake.length ≤ 8 ∧ s.room.held.length ≤ 4 ∧ s.lock.waiting.length ≤ 4 ∧
    s.decoder.drops ≤ 65535 ∧ ∀ c, (s.port.events.get c).count ≤ 255

end Sys2Proof.Machine
end

