-- ==== Sys2Proof/Certificates/Slice0/Obligations.lean ====
section
/-! DEFINITION. The statements for the provers. A statement says of a command, for every state and operands
its hypotheses admit, that `exec` answers a next state, and which: written as the state before with the
fields the command changes, so that all else is unchanged; where verdicts are re-run, `Reran` and
`LapsedAndReran` name the outputs, and say what such runs leave unchanged. -/

section Statements

open Sys2Proof Sys2Proof.Machine

/-! ## Chapter 1: room and folio -/

/-- R4, R102: a message for the Room Controller, or for the Rating Lock, that meets it busy, or meets a
message that waits, joins the end of the held, or the waiting, list; with four waiting it is discarded and
counted. Not busy, each takes the head of its list, and goes on until the list is empty or it is busy again;
busy, it takes none. The Room Controller is busy with a write of its own, in flight or waiting for the Rating Lock
(a PROVISION's is one), with a check-out, a BUY or CANCEL write, or a release write that ends the settling folio; the
Rating Lock with a write that carries lock state. The model's choices here: log 41. -/
def Obligations.BusyOwnersHoldMessagesAndTakeThemInOrder : Prop :=
  (∀ s : State,
    (s.roomBusy = true ↔ s.room.write ≠ none ∨ s.room.checkOut ≠ none ∨ s.port.provision ≠ none ∨
      (∃ p, TurnWrite.buy p ∈ s.turns) ∨ (∃ p stamp, TurnWrite.cancel p stamp ∈ s.turns) ∨
      ∃ numbers cs, TurnWrite.release numbers cs true ∈ s.turns) ∧
    (s.lockBusy = true ↔ s.lock.write ≠ none ∨ (∃ p, s.port.provision = some p ∧ p.newRoom = true) ∨
      ∃ w, s.room.write = some ⟨w, true⟩ ∧
        ((∃ folio limit pin ceiling, w = .newFolio folio limit pin ceiling) ∨
          (∃ limit pin, w = .folioUpdate limit (some pin)) ∨ ∃ settling, w = .clearing settling)) ∧
    (s.roomSettled = true ↔ s.roomBusy = false ∧ s.room.held = []) ∧
    (s.lockSettled = true ↔ s.lockBusy = false ∧ s.lock.waiting = [])) ∧
  (∀ c ∈ ([(Instr.checkIn, .checkIn), (.checkOut, .checkOut), (.setLimit, .setLimit),
      (.serviceOpen, .serviceOpen), (.serviceClose, .serviceClose), (.suspend, .suspend),
      (.resume, .resume), (.lockdown, .lockdown)] : List ((Nat → Instr) × MsgKind)),
    ∀ (t : Nat) (s : State) (scope : Scope) (issue : Nat) (body : MsgBody),
      Awaits s scope issue body → body.kind = c.2 → s.roomSettled = false →
      exec (c.1 t) s = .next (
        if s.room.held.length < 4 then
          { s.receiving scope issue body t with
            room := { s.room with held := s.room.held ++ [body] } }.judgeHanded s.decoder.handed
        else (s.discarding t).judgeHanded s.decoder.handed)) ∧
  (∀ c ∈ ([(Instr.pinReset, .pinReset), (.setCeiling, .setCeiling), (.bar, .bar)] :
      List ((Nat → Instr) × MsgKind)),
    ∀ (t : Nat) (s : State) (scope : Scope) (issue : Nat) (body : MsgBody),
      Awaits s scope issue body → body.kind = c.2 → s.lockSettled = false →
      exec (c.1 t) s = .next (
        if s.lock.waiting.length < 4 then
          { s.receiving scope issue body t with
            lock := { s.lock with waiting := s.lock.waiting ++ [body] } }.judgeHanded s.decoder.handed
        else (s.discarding t).judgeHanded s.decoder.handed)) ∧
  (∀ (t : Nat) (s : State), s.power ≠ .off →
    (s.roomBusy = true → exec (.heldMessageTaken t) s = .next (s.atInstant t)) ∧
    (s.roomBusy = false → ∀ m ms, s.room.held = m :: ms →
      exec (.heldMessageTaken t) s = .next (((s.atInstant t).takeRoomMessage m).takeHeld ms)) ∧
    (s.lockBusy = true → exec (.waitingMessageTaken t) s = .next (s.atInstant t)) ∧
    (s.lockBusy = false → ∀ m ms, s.lock.waiting = m :: ms →
      exec (.waitingMessageTaken t) s = .next (((s.atInstant t).takeLockMessage m).takeWaiting ms))) ∧
  (∀ (s : State) (m : MsgBody) (ms : List MsgBody),
    s.takeHeld [] = { s with room := { s.room with held := [] } } ∧
    s.takeHeld (m :: ms) =
      (if s.roomBusy then { s with room := { s.room with held := m :: ms } }
      else (s.takeRoomMessage m).takeHeld ms) ∧
    s.takeWaiting [] = { s with lock := { s.lock with waiting := [] } } ∧
    s.takeWaiting (m :: ms) =
      (if s.lockBusy then { s with lock := { s.lock with waiting := m :: ms } }
      else (s.takeLockMessage m).takeWaiting ms))

/-- R5, R6, R11, R109, R110: CHECK_IN, taken: ignored with PROPERTY; or a same-folio update, which begins a
write when it changes the limit or the PIN; or a check-out that the CHECK_IN waits for; or a new folio's write.
The write waits for a write of the Rating Lock's own (R102). Log 12: the default ceiling is read as the write
begins. At its completion the new folio is open, in use and durably, with the lock state it resets; a running
lockout ends and raises LOCK; PROPERTY is raised; a changed ceiling judges deferred lapses, and, by log 57's choice,
one that stays as it was does not; every verdict is run. Log 74: the carried PIN is compared with the PIN in use. -/
def Obligations.CheckInOpensOrUpdatesAFolio : Prop :=
  (∀ (t : Nat) (s : State) (scope : Scope) (issue folio limit : Nat) (pin : Option Nat),
    Awaits s scope issue (.checkIn folio limit pin) → s.roomSettled = true →
    ∃ s₁, exec (.checkIn t) s = .next (s₁.judgeHanded s.decoder.handed) ∧
      let s₀ := s.receiving scope issue (.checkIn folio limit pin) t
      let floor := s.cur.room.spend + s.room.pendingCharge + accruedTotal s.cur.meter
      let limit' := max floor (min 9999999 limit)
      let pin' := if s.cur.lock.pin = pin then none else pin
      if folio = 0 ∨ s.cur.room.settling = some folio ∨
          (s.cur.room.folio ≠ some folio ∧ ∃ r ∈ s.cur.records, r.folio = folio) then
        s₁ = s₀.raise .property
      else if s.cur.room.state ≠ .occupied then
        let write := RoomWrite.newFolio folio (min 9999999 limit) pin s.cur.policy.ceiling
        s₁ = { s₀ with room := { s.room with write := some ⟨write, !s.ownLockBusy⟩ } }
      else if s.cur.room.folio = some folio then
        let write := RoomWrite.folioUpdate limit' pin'
        s₁ = if limit' = s.cur.room.limit ∧ pin' = none then s₀
          else { s₀ with room := { s.room with write := some ⟨write, !(pin'.isSome && s.ownLockBusy)⟩ } }
      else
        ∃ s₂, Reran allScreens
            { s₀ with room := { s.room with checkOut := some (some ⟨folio, limit, pin⟩) } } s₂ ∧
          s₁ = s₂.advanceCheckOut) ∧
  (∀ (t : Nat) (s : State) (folio limit ceiling : Nat) (pin : Option Nat),
    s.power ≠ .off → s.room.write = some ⟨.newFolio folio limit pin ceiling, true⟩ →
    ∃ s₁, exec (.newFolioWriteComplete t) s = .next s₁.lockFreed ∧
      let opened (r : Retained) : Retained :=
        { r with
          room := { r.room with state := .occupied, folio := some folio, limit := limit, spend := 0, count := 0 }
          lock := { r.lock with ceiling := ceiling, pin := pin, failures := 0, lockouts := 0, running := false } }
      let s₀ : State :=
        { s.atInstant t with
          cur := opened s.cur
          store := opened s.store
          room := { s.room with write := none }
          lock := { s.lock with lockoutAt := none, clearOwed := false } }
      LapsedAndReran (fun _ => ceiling != s.cur.lock.ceiling) allScreens
        ((if s.cur.lock.running then s₀.raise .lock else s₀).raise .property) s₁)

/-- R6, R13, R85: SET_LIMIT, taken, and the completions of the writes that carry a limit: L never stands below
what is committed, and a changed L re-runs the outputs slated for money. The model's choices here: log 15 (a clamp at
the completion too, and PROPERTY raised also where it leaves L as it was). -/
def Obligations.LimitStaysAtOrAboveTheSpendFloor : Prop :=
  (∀ (t : Nat) (s : State) (scope : Scope) (issue folio limit : Nat),
    Awaits s scope issue (.setLimit folio limit) → s.roomSettled = true →
    let s₀ := s.receiving scope issue (.setLimit folio limit) t
    let floor := s.cur.room.spend + s.room.pendingCharge + accruedTotal s.cur.meter
    let limit' := max floor (min 9999999 limit)
    exec (.setLimit t) s = .next ((
      if s.cur.room.state = .occupied ∧ s.room.checkOut = none ∧ s.cur.room.folio = some folio then
        if limit' = s.cur.room.limit then s₀
        else { s₀ with room := { s.room with write := some ⟨.limit limit', true⟩ } }
      else s₀.raise .property).judgeHanded s.decoder.handed)) ∧
  (∀ (t : Nat) (s : State) (w : RoomWrite) (limit : Nat) (pin : Option Nat), s.power ≠ .off →
    s.room.write = some ⟨w, true⟩ →
    let floor := s.cur.room.spend + s.room.pendingCharge + accruedTotal s.cur.meter
    let limited (r : Retained) : Retained := { r with room := { r.room with limit := max limit floor } }
    let pinned (r : Retained) : Retained :=
      { r with lock := { r.lock with pin := if pin = none then r.lock.pin else pin } }
    let s₀ : State := { s.atInstant t with room := { s.room with write := none } }
    let told (x s₁ : State) : Prop :=
      if max limit floor = s.cur.room.limit then s₁ = x else Reran x.moneySlated x s₁
    (w = .limit limit → ∃ s₁, exec (.limitWriteComplete t) s = .next s₁ ∧
      told ({ s₀ with cur := limited s.cur, store := limited s.store }.raise .property) s₁) ∧
    (w = .folioUpdate limit pin → ∃ s₁, exec (.folioUpdateWriteComplete t) s = .next s₁.lockFreed ∧
      told ({ s₀ with cur := pinned (limited s.cur), store := pinned (limited s.store) }.raise .property)
        s₁))

/-- R7, R8, R9, R14: CHECK_OUT, taken: ignored with PROPERTY when its folio is not the current one; else the check-out
is in progress from then on, and every verdict is run. It closes the open sessions one after another, oldest
first, leaving out those a suspension closes, and waits while every session left is closing or left out; with no
session left it begins the clearing write, which waits for a write of the Rating Lock's own, and chooses the settling
folio from what the journal then holds. The model's choices here: log 16. -/
def Obligations.CheckOutClosesSessionsThenClears : Prop :=
  (∀ (t : Nat) (s : State) (scope : Scope) (issue folio : Nat),
    Awaits s scope issue (.checkOut folio) → s.roomSettled = true →
    ∃ s₁, exec (.checkOut t) s = .next (s₁.judgeHanded s.decoder.handed) ∧
      let s₀ := s.receiving scope issue (.checkOut folio) t
      if s.cur.room.state = .occupied ∧ s.cur.room.folio = some folio then
        ∃ s₂, Reran allScreens { s₀ with room := { s.room with checkOut := some none } } s₂ ∧
          s₁ = s₂.advanceCheckOut
      else s₁ = s₀.raise .property) ∧
  (∀ (s : State), (s.room.checkOut = none ∨ s.room.write ≠ none) → s.advanceCheckOut = s) ∧
  (∀ (s : State), s.room.checkOut.isSome = true → s.room.write = none →
    let holds (folio : Option Nat) : Prop := ∃ f, folio = some f ∧ ∃ r ∈ s.cur.records, r.folio = f
    (s.cur.meter = [] → ∃ settling,
      s.advanceCheckOut =
        { s with room := { s.room with write := some ⟨.clearing settling, s.lock.write.isNone⟩ } } ∧
      (holds s.cur.room.folio → settling = s.cur.room.folio) ∧
      (¬ holds s.cur.room.folio → holds s.cur.room.settling → settling = s.cur.room.settling) ∧
      (¬ holds s.cur.room.folio → ¬ holds s.cur.room.settling → settling = none)) ∧
    (s.cur.meter ≠ [] → (∀ x ∈ s.cur.meter, x.closing ≠ none ∨ x.service ∈ s.billing.suspendCloses) →
      s.advanceCheckOut = s) ∧
    (s.cur.meter ≠ [] → (∃ x ∈ s.cur.meter, x.closing = some .checkOut) → s.advanceCheckOut = s) ∧
    (∀ (before after : List Session) (x : Session), s.cur.meter = before ++ x :: after →
      (∀ y ∈ s.cur.meter, y.closing ≠ some .checkOut) →
      (∀ y ∈ before, y.closing ≠ none ∨ y.service ∈ s.billing.suspendCloses) →
      x.closing = none → x.service ∉ s.billing.suspendCloses →
      s.advanceCheckOut = s.beginClose x.service .checkOut))

/-- R8, R9, R11: at the completion of the clearing write the folio, the purchases, the previews, the PIN and
every unlock are gone, the room is SETTLING with the settling folio that stage 2 chose as it began
(CheckOutClosesSessionsThenClears), or VACANT with none, PROPERTY is raised, every verdict is run, a GUEST request at
the head of the intake is marked as one that waited, and a CHECK_IN that started the check-out begins its new folio.
The model's choices here: log 16. -/
def Obligations.ClearingWriteLeavesTheSettlingFolioOfR9 : Prop :=
  (∀ (t : Nat) (s : State) (settling : Option Nat) (next : Option CheckIn), s.power ≠ .off →
    s.room.write = some ⟨.clearing settling, true⟩ → s.room.checkOut = some next →
    ∃ s₁, exec (.checkoutClearingComplete t) s =
        .next (match next with
          | none => s₁.markGuestWaits.lockFreed
          | some c => (s₁.markGuestWaits.beginNewFolio c).lockFreed) ∧
      let cleared (r : Retained) : Retained :=
        { r with
          room := { r.room with
            state := if settling = none then .vacant else .settling
            folio := none, settling := settling, limit := 0, spend := 0, count := 0 }
          lock := { r.lock with pin := none }
          purchases := []
          previews := [] }
      Reran allScreens
        ({ s.atInstant t with
            cur := cleared s.cur
            store := cleared s.store
            room := { s.room with write := none, checkOut := none }
            lock := { s.lock with room := none, screens := ⟨none, none, none, none⟩ } }.raise .property)
        s₁) ∧
  (∀ (s : State),
    let guest : Prop := ∃ r rest, s.port.intake = r :: rest ∧ 0x11 ≤ r.kind.toNat ∧ r.kind.toNat ≤ 0x15 ∧
      s.port.executing = false
    (guest → s.markGuestWaits = { s with port := { s.port with guestWaits := true } }) ∧
    (¬ guest → s.markGuestWaits = s))

/-- R16: SERVICE_OPEN, taken, opens or restarts the window and raises PROPERTY; SERVICE_CLOSE closes an open
one and raises PROPERTY; the end instant closes it. -/
def Obligations.MaintenanceWindowOpensAndCloses : Prop :=
  (∀ (t : Nat) (s : State) (scope : Scope) (issue minutes : Nat),
    Awaits s scope issue (.serviceOpen minutes) → s.roomSettled = true →
    exec (.serviceOpen t) s = .next
      (({ s.receiving scope issue (.serviceOpen minutes) t with
          room := { s.room with
            windowEnd := some (max s.time.now t + max 1 (min 240 minutes) * 60000) } }.raise
        .property).judgeHanded s.decoder.handed)) ∧
  (∀ (t : Nat) (s : State) (scope : Scope) (issue : Nat),
    Awaits s scope issue .serviceClose → s.roomSettled = true →
    exec (.serviceClose t) s = .next (
      (if s.room.windowEnd = none then s.receiving scope issue .serviceClose t
      else { s.receiving scope issue .serviceClose t with
        room := { s.room with windowEnd := none } }.raise .property).judgeHanded s.decoder.handed)) ∧
  (∀ (t ends : Nat) (s : State), s.power ≠ .off → s.room.windowEnd = some ends →
    exec (.maintenanceWindowEnd t) s = .next (
      if ends ≤ max s.time.now t then { s.atInstant t with room := { s.room with windowEnd := none } }
      else s.atInstant t))

/-- R14, R15, R76, R111: SUSPEND, RESUME and LOCKDOWN, taken, begin a durable write when they change their
flag, and change nothing when they do not. At its completion the flag has its value, in use and durably, and
PROPERTY is raised; a suspension begins the closes of the open sessions and turns every engine OFF; a lockdown
ends every unlock; a resumption powers the engines as the power policy directs; every verdict is run. The closes of
a suspension begin one at a time, each when the one before has ended. The model's choices here: log 36. -/
def Obligations.RoomFlagsChangeAtTheirWritesCompletion : Prop :=
  (∀ (t : Nat) (s : State) (scope : Scope) (issue : Nat) (body : MsgBody),
    Awaits s scope issue body → s.roomSettled = true →
    let s₀ := s.receiving scope issue body t
    let begins (w : RoomWrite) : State := { s₀ with room := { s.room with write := some ⟨w, true⟩ } }
    (body = .suspend → exec (.suspend t) s = .next
      ((if s.cur.room.suspended then s₀ else begins .suspend).judgeHanded s.decoder.handed)) ∧
    (body = .resume → exec (.resume t) s = .next
      ((if s.cur.room.suspended then begins .resume else s₀).judgeHanded s.decoder.handed)) ∧
    (∀ on, body = .lockdown on → exec (.lockdown t) s = .next
      ((if s.cur.room.lockdown = on then s₀ else begins (.lockdown on)).judgeHanded s.decoder.handed))) ∧
  (∀ (t : Nat) (s : State) (w : RoomWrite), s.power ≠ .off → s.room.write = some ⟨w, true⟩ →
    let s₀ (f : RoomRecord → RoomRecord) : State :=
      { s.atInstant t with
        cur := { s.cur with room := f s.cur.room }
        store := { s.store with room := f s.store.room }
        room := { s.room with write := none } }.raise .property
    (w = .suspend → ∃ s₁, exec (.suspendWriteComplete t) s = .next s₁ ∧
      let marked : State := { s₀ (fun r => { r with suspended := true }) with
        billing := { s.billing with
          suspendCloses := (s.cur.meter.filter fun x => x.closing.isNone).map fun x => x.service } }
      let closing := marked.advanceSuspend
      let off : State :=
        { closing with
          pool := ⟨⟨.off, .off, .off⟩, []⟩
          router := { closing.router with outputs := closing.router.outputs.map .unhold } }
      Reran allScreens off.promoteKeys s₁) ∧
    (w = .resume → ∃ s₁, exec (.resumeWriteComplete t) s = .next s₁ ∧
      Reran allScreens (s₀ fun r => { r with suspended := false }).powerEngines s₁) ∧
    (∀ on, w = .lockdown on → ∃ s₁, exec (.lockdownWriteComplete t) s = .next s₁ ∧
      Reran allScreens
        { s₀ (fun r => { r with lockdown := on }) with
          lock := if on then { s.lock with room := none, screens := ⟨none, none, none, none⟩ } else s.lock } s₁)) ∧
  (∀ (s : State),
    let marks (l : List Nat) : State := { s with billing := { s.billing with suspendCloses := l } }
    let standsOpen (n : Nat) : Prop := ∃ x, s.session n = some x ∧ x.closing = none
    ((∃ x ∈ s.cur.meter, x.closing = some .suspend) → s.advanceSuspend = s) ∧
    ((∀ x ∈ s.cur.meter, x.closing ≠ some .suspend) →
      ((∀ n ∈ s.billing.suspendCloses, ¬ standsOpen n) → s.advanceSuspend = marks []) ∧
      (∀ before n after, s.billing.suspendCloses = before ++ n :: after → (∀ m ∈ before, ¬ standsOpen m) →
        standsOpen n → s.advanceSuspend =
          (marks (s.billing.suspendCloses.filter fun m => m != n)).beginClose n .suspend)))

/-! ## Chapter 2: distribution cells and the cell front -/

/-- R19, R20, R23: a cell that is malformed, that arrives while the Cell Front is disabled, or that is not
kept has no effect; a FILLER cell never has. R25, R26, R27, R62, R63, R80, R83: an accepted MEDIA cell is
checked for continuity and restarts the no-signal timer, clearing the condition, which re-runs verdicts. A
CLEAR payload, or one the service's ACTIVE engine decodes under the current key of its parity, restarts that
engine's no-key timer and reaches the outputs on the service; any other payload is dropped. The model's
choices here: log 31, and log 73 (a cell that clears a no-key condition re-runs the verdicts before it reaches them). -/
def Obligations.MediaCellIsCheckedThenPassedOrDropped : Prop :=
  (∀ (t : Nat) (cell : List Byte) (s : State),
    exec (.filler t cell) s = .next (if s.power = .off then s else s.atInstant t) ∧
    (s.cells.enabled = false ∨ wellFormedCell .media cell = false ∨
        (∀ p ∈ s.cells.programmes, p.service ≠ cellService cell) →
      exec (.mediaCell t cell) s = .next (if s.power = .off then s else s.atInstant t)) ∧
    (s.cells.enabled = false ∨ wellFormedCell .descriptor cell = false ∨
        (∀ p ∈ s.cells.programmes, p.service ≠ cellService cell) →
      exec (.descriptorCell t cell) s = .next (if s.power = .off then s else s.atInstant t)) ∧
    (s.cells.enabled = false ∨ wellFormedCell .management cell = false ∨ cellService cell ≠ 4095 →
      exec (.managementCell t cell) s = .next (if s.power = .off then s else s.atInstant t))) ∧
  (∀ (t n : Nat) (cell : List Byte) (s : State) (p : Programme) (sc : Scramble),
    s.power ≠ .off → s.cells.enabled = true → wellFormedCell .media cell = true →
    cellService cell = n → s.programme n = some p → cellScramble cell = some sc →
    let now := max s.time.now t
    let seen (q : Programme) : Programme :=
      { q with
        lastCount := some (cellCount cell)
        discontinuities :=
          if q.lastCount = none ∨ q.lastCount.map (fun c => (c + 1) % 16) = some (cellCount cell) then
            q.discontinuities
          else min (q.discontinuities + 1) 65535
        noSignal := false
        noSignalAt := now + 2000 }
    let reaches (payload : List Byte) (x : Output) : Output :=
      { x with
        content := if x.shown.isPlaying = true ∧ x.shownService = some n then payload else x.content
        contentSeen := if x.basis.isSome = true ∧ x.route = some n then true else x.contentSeen
        decided :=
          match x.basis with
          | some b => if x.route = some n then .playing b else x.decided
          | none => x.decided }
    let s₀ : State :=
      { s.atInstant t with
        cells := { s.cells with
          programmes := s.cells.programmes.map fun q => if q.service = n then seen q else q } }
    let decoded (e : EngineId) (parity : Option Parity) (s₁ s₃ : State) : Prop :=
      ∃ last noKeyAt, s₁.engine e = .active n last noKeyAt ∧
        let restarted := (s₁.setEngine e (.active n (parity.or last) (some (now + 500)))).promoteKeys
        if noKeyAt = none then Reran (restarted.routedTo n) restarted s₃ else s₃ = restarted
    ∃ s₁ s₂, exec (.mediaCell t cell) s = .next s₂ ∧
      (if p.noSignal then Reran (s₀.routedTo n) s₀ s₁ else s₁ = s₀) ∧
      match sc, s₁.activeEngine n with
      | .clear, none => s₂ = s₁.onOutputs (reaches (cellPayload cell))
      | .clear, some e => ∃ s₃, decoded e none s₁ s₃ ∧ s₂ = s₃.onOutputs (reaches (cellPayload cell))
      | .scrambled _, none => s₂ = s₁
      | .scrambled q, some e =>
        match s₁.cellKey n q with
        | none => s₂ = s₁
        | some key =>
          ∃ s₃, decoded e (some q) s₁ s₃ ∧
            s₂ = s₃.onOutputs (reaches (descramble key n (cellCount cell) (cellPayload cell))))

/-- R28, R30: an accepted DESCRIPTOR cell sets the title and the rating and restarts the staleness deadline;
a title or a rating that differs is notified. R26, R29: at its deadline a no-signal timer sets the condition, and
a staleness deadline takes the rating away and keeps the title; before it, nothing happens. The model's choices
here: log 57. -/
def Obligations.ProgrammeRecordFollowsDescriptorsAndDeadlines : Prop :=
  (∀ (t n : Nat) (cell : List Byte) (s : State) (p : Programme),
    s.power ≠ .off → s.cells.enabled = true → wellFormedCell .descriptor cell = true →
    cellService cell = n → s.programme n = some p →
    let title := field 8 2 cell
    let rating := min 5 (field 10 1 cell)
    let seen (q : Programme) : Programme :=
      { q with
        title := if title = 0 then none else some title
        rating := some rating
        staleAt := some (max s.time.now t + 8000) }
    let s₀ : State :=
      { s.atInstant t with
        cells := { s.cells with
          programmes := s.cells.programmes.map fun q => if q.service = n then seen q else q } }
    ∃ s₁, exec (.descriptorCell t cell) s = .next s₁ ∧
      if (seen p).title = p.title ∧ p.rating = some rating then s₁ = s₀
      else LapsedAndReran (s₀.rerated s) (s₀.routedTo n) s₀ s₁) ∧
  (∀ (t n : Nat) (s : State) (p : Programme), s.power ≠ .off → s.programme n = some p →
    let now := max s.time.now t
    let changed (f : Programme → Programme) : State :=
      { s.atInstant t with
        cells := { s.cells with
          programmes := s.cells.programmes.map fun q => if q.service = n then f q else q } }
    (∃ s₁, exec (.noSignalDeadline t n) s = .next s₁ ∧
      if p.noSignal = false ∧ p.noSignalAt ≤ now then
        let lost := changed fun q => { q with noSignal := true }
        Reran (lost.routedTo n) lost s₁
      else s₁ = s.atInstant t) ∧
    (∃ s₁, exec (.stalenessDeadline t n) s = .next s₁ ∧
      if ∃ d, p.staleAt = some d ∧ d ≤ now then
        let stale := changed fun q => { q with rating := none, staleAt := none }
        LapsedAndReran (stale.rerated s) (stale.routedTo n) stale s₁
      else s₁ = s.atInstant t))

/-! ## Chapter 3: property management messages -/

/-- R32, R37, R38, R39, R40, R41: a management payload that meets no message before it is judged by the six
tests in order; one that passes awaits its owner, and the drop counter counts failures of tests 1, 2, 3 and 5.
Log 8: a payload that meets a message awaiting its owner waits behind it. Those that wait are judged, in order
and by the same tests, when the owner has received its message (`State.judgeHanded`, which the statement of every
message names): each that fails a test is gone, and the first that passes all six awaits its owner before the rest. -/
def Obligations.ManagementPayloadIsJudgedByTheSixTests : Prop :=
  ∀ (t : Nat) (cell : List Byte) (s : State),
    s.power ≠ .off → s.cells.enabled = true → wellFormedCell .management cell = true →
    cellService cell = 4095 →
    let p := cellPayload cell
    let s₀ := s.atInstant t
    let dropped := { s₀ with decoder := { s.decoder with drops := min (s.decoder.drops + 1) 65535 } }
    let allowed (k : MsgKind) (sc : Scope) : Prop :=
      if k ∈ [.setPolicy, .setRates, .suspend, .resume, .lockdown, .fullReset] then True
      else if k ∈ [.setTime, .lineup, .catalogue, .keyDelivery] then sc ≠ .room
      else sc = .room
    let addressed (sc : Scope) : Prop :=
      sc = .all ∨ s.cur.room.roomId ≠ 0 ∧
        (sc = .room ∧ msgAddress p = s.cur.room.roomId ∨ sc = .group ∧ msgAddress p = s.cur.room.group)
    let seenBefore (k : MsgKind) (sc : Scope) : Prop :=
      k ∉ [.lineup, .catalogue, .keyDelivery] ∧ s.issueOf k sc = some (msgIssue p)
    (s.decoder.accepted ≠ none →
      exec (.managementCell t cell) s =
        .next { s₀ with decoder := { s.decoder with handed := s.decoder.handed ++ [p] } }) ∧
    (s.decoder.accepted = none → s.decoder.handed = [] →
      (msgCheckOk p = false → exec (.managementCell t cell) s = .next dropped) ∧
      (msgCheckOk p = true → msgKind p = none ∨ msgScope p = none →
        exec (.managementCell t cell) s = .next dropped) ∧
      (∀ k sc, msgCheckOk p = true → msgKind p = some k → msgScope p = some sc →
        (¬ allowed k sc → exec (.managementCell t cell) s = .next dropped) ∧
        (allowed k sc → ¬ addressed sc → exec (.managementCell t cell) s = .next s₀) ∧
        (allowed k sc → addressed sc → parseBody k (msgBody p) = none →
          exec (.managementCell t cell) s = .next dropped) ∧
        (allowed k sc → addressed sc → ∀ body, parseBody k (msgBody p) = some body →
          (seenBefore k sc → exec (.managementCell t cell) s = .next s₀) ∧
          (¬ seenBefore k sc → exec (.managementCell t cell) s =
            .next { s₀ with decoder := { s.decoder with
              accepted := some ⟨sc, msgIssue p, body⟩ } })))) ∧
    (s.decoder.accepted = none →
      exec (.managementCell t cell) s = .next (s₀.judgeHanded (s.decoder.handed ++ [p]))) ∧
    s.judgeHanded [] = { s with decoder := { s.decoder with handed := [] } } ∧
    (∀ behind : List (List Byte),
      let counted := { s with decoder := { s.decoder with drops := min (s.decoder.drops + 1) 65535 } }
      let judged := s.judgeHanded (p :: behind)
      (msgCheckOk p = false → judged = counted.judgeHanded behind) ∧
      (msgCheckOk p = true → msgKind p = none ∨ msgScope p = none → judged = counted.judgeHanded behind) ∧
      (∀ k sc, msgCheckOk p = true → msgKind p = some k → msgScope p = some sc →
        (¬ allowed k sc → judged = counted.judgeHanded behind) ∧
        (allowed k sc → ¬ addressed sc → judged = s.judgeHanded behind) ∧
        (allowed k sc → addressed sc → parseBody k (msgBody p) = none →
          judged = counted.judgeHanded behind) ∧
        (allowed k sc → addressed sc → ∀ body, parseBody k (msgBody p) = some body →
          (seenBefore k sc → judged = s.judgeHanded behind) ∧
          (¬ seenBefore k sc → judged = { s with decoder := { s.decoder with
            accepted := some ⟨sc, msgIssue p, body⟩, handed := behind } }))))

/-- R42 to R49, R182: which bodies are malformed for a kind: those of another length than the kind's, and those
with an identifier, group, tier, enumeration or time outside its range; and what a well-formed body carries, field
by field: quantities and settings clamped where the rule clamps them, and every other field as its bytes spell it. -/
def Obligations.WellFormedBodyHoldsValuesInRange : Prop :=
  ∀ (k : MsgKind) (b : List Byte),
    let length : Nat := match k with
      | .serviceClose | .suspend | .resume => 0
      | .serviceOpen | .setCeiling | .bar | .grantTier | .revokeTier | .revokeGroup | .lockdown => 1
      | .fullReset => 2
      | .checkOut | .releaseCharges | .setRates => 4
      | .pinReset => 5
      | .setTime => 6
      | .setLimit => 8
      | .setPolicy => 9
      | .groupKey => 10
      | .keyDelivery => 12
      | .checkIn => 13
      | .lineup => 4 + 17 * field 3 1 b
      | .catalogue => 4 + 8 * field 3 1 b
    let malformed : Prop := match k with
      | .checkIn => 1 < field 8 1 b
      | .pinReset | .bar | .lockdown => 1 < field 0 1 b
      | .grantTier | .revokeTier => 31 < field 0 1 b
      | .groupKey | .revokeGroup => 15 < field 0 1 b
      | .keyDelivery => 15 < field 0 1 b ∨ 1 < field 1 1 b
      | .setTime => 86399 < field 2 4 b
      | .setPolicy => 1 < field 8 1 b
      | .fullReset => field 0 2 b = 0
      | .lineup => field 2 1 b < 1 ∨ 12 < field 2 1 b ∨ field 2 1 b ≤ field 1 1 b ∨ 8 < field 3 1 b
      | .catalogue => field 2 1 b < 1 ∨ 16 < field 2 1 b ∨ field 2 1 b ≤ field 1 1 b ∨ 4 < field 3 1 b
      | .checkOut | .setLimit | .serviceOpen | .serviceClose | .setCeiling | .releaseCharges | .setRates
      | .suspend | .resume => False
    let pinAt (present off : Nat) : Option Nat :=
      let c (i : Nat) : Nat := field (off + i) 1 b
      if field present 1 b = 1 ∧ ∀ i < 4, 48 ≤ c i ∧ c i ≤ 57 then
        some ((c 0 - 48) * 1000 + (c 1 - 48) * 100 + (c 2 - 48) * 10 + (c 3 - 48))
      else none
    (parseBody k b = none ↔ b.length ≠ length ∨ malformed) ∧
    ∀ body : MsgBody, parseBody k b = some body → body.kind = k ∧
      match body with
      | .checkIn folio limit pin =>
        folio = field 0 4 b ∧ limit = min 9999999 (field 4 4 b) ∧ pin = pinAt 8 9
      | .checkOut folio => folio = field 0 4 b
      | .setLimit folio limit => folio = field 0 4 b ∧ limit = min 9999999 (field 4 4 b)
      | .serviceOpen minutes => minutes = max 1 (min 240 (field 0 1 b))
      | .pinReset pin => pin = pinAt 0 1
      | .setCeiling ceiling => ceiling = min 5 (field 0 1 b)
      | .bar on | .lockdown on => (on = true ↔ field 0 1 b = 1)
      | .grantTier tier | .revokeTier tier => tier = field 0 1 b
      | .groupKey group wrapped check =>
        group = field 0 1 b ∧ wrapped = (b.drop 1).take 8 ∧ check.toNat = field 9 1 b
      | .revokeGroup group => group = field 0 1 b
      | .releaseCharges upTo => upTo = field 0 4 b
      | .setTime time => time.day = field 0 2 b ∧ time.sec = field 2 4 b
      | .lineup version index count records =>
        version = field 0 1 b ∧ index = field 1 1 b ∧ count = field 2 1 b ∧ records.length = field 3 1 b ∧
          ∀ i r, records[i]? = some r →
            let f (off width : Nat) : Nat := field (4 + 17 * i + off) width b
            r.service = f 0 2 ∧ r.position = f 2 2 ∧ r.kind = f 4 1 ∧ r.tier = f 5 1 ∧ r.scrambled = f 6 1 ∧
              r.keyGroup = f 7 1 ∧ r.rating = f 8 1 ∧ r.minutes = f 9 1 ∧ r.price = f 10 2 ∧ r.cap = f 12 3 ∧
              r.free = f 15 2
      | .catalogue version index count records =>
        version = field 0 1 b ∧ index = field 1 1 b ∧ count = field 2 1 b ∧ records.length = field 3 1 b ∧
          ∀ i r, records[i]? = some r →
            let f (off width : Nat) : Nat := field (4 + 8 * i + off) width b
            r.title = f 0 2 ∧ r.price = f 2 4 ∧ r.rating = f 6 1 ∧ r.window = f 7 1
      | .keyDelivery group parity epoch wrapped check =>
        group = field 0 1 b ∧ (parity = .odd ↔ field 1 1 b = 1) ∧ epoch.toNat = field 2 1 b ∧
          wrapped = (b.drop 3).take 8 ∧ check.toNat = field 11 1 b
      | .setPolicy p =>
        p.preview = min 600 (field 0 2 b) ∧ p.grace = min 10 (field 2 1 b) ∧
          p.window = max 1 (min 48 (field 3 1 b)) ∧ p.unlockMinutes = max 15 (min 240 (field 4 1 b)) ∧
          p.roomUnlockHours = max 1 (min 24 (field 5 1 b)) ∧ p.dayStart = min 23 (field 6 1 b) ∧
          p.ceiling = min 5 (field 7 1 b) ∧ (p.source = .lineupDefault ↔ field 8 1 b = 1)
      | .setRates r =>
        r.tax = min 2500 (field 0 2 b) ∧ r.bundle = min 9 (field 2 1 b) ∧ r.discount = min 50 (field 3 1 b)
      | .fullReset serial => serial = field 0 2 b
      | .serviceClose | .suspend | .resume => True

/-- R46, R47, R118: SET_POLICY and SET_RATES, taken, begin a durable write of changed values, and are kept as the
next ones while a write is in flight, the last one kept; at the completion the values are in use and durable,
a new policy runs every verdict, and the kept next values are compared and written. GRANT_TIER and REVOKE_TIER
begin a write of a changed set, or change the next set while a tier write, or the write of a new room's PROVISION,
is in flight; at its completion the set is in use and durable, every verdict is run, and a next set that differs
is written. The model's choices here: log 57. -/
def Obligations.PolicyRatesAndTiersChangeAtTheirWritesCompletion : Prop :=
  (∀ (t : Nat) (s : State) (scope : Scope) (issue : Nat) (p : Policy),
    Awaits s scope issue (.setPolicy p) →
    exec (.setPolicy t) s = .next (
      { s.receiving scope issue (.setPolicy p) t with
        billing :=
          if s.billing.policyWrite ≠ none then { s.billing with policyNext := some p }
          else if s.cur.policy = p then s.billing
          else { s.billing with policyWrite := some p } }.judgeHanded s.decoder.handed)) ∧
  (∀ (t : Nat) (s : State) (scope : Scope) (issue : Nat) (r : Rates),
    Awaits s scope issue (.setRates r) →
    exec (.setRates t) s = .next (
      { s.receiving scope issue (.setRates r) t with
        billing :=
          if s.billing.ratesWrite ≠ none then { s.billing with ratesNext := some r }
          else if s.cur.rates = r then s.billing
          else { s.billing with ratesWrite := some r } }.judgeHanded s.decoder.handed)) ∧
  (∀ (t : Nat) (s : State) (p : Policy), s.power ≠ .off → s.billing.policyWrite = some p →
    ∃ s₁, exec (.policyWriteComplete t) s = .next s₁ ∧
      ∃ s₂,
        let set : State :=
          { s.atInstant t with
            cur := { s.cur with policy := p }
            store := { s.store with policy := p }
            billing := { s.billing with policyWrite := none } }
        LapsedAndReran (set.rerated s) allScreens set s₂ ∧
        s₁ = { s₂ with billing := { s₂.billing with
          policyNext := none
          policyWrite := if s.billing.policyNext = some p then none else s.billing.policyNext } }) ∧
  (∀ (t : Nat) (s : State) (r : Rates), s.power ≠ .off → s.billing.ratesWrite = some r →
    exec (.ratesWriteComplete t) s = .next
      { s.atInstant t with
        cur := { s.cur with rates := r }
        store := { s.store with rates := r }
        billing := { s.billing with
          ratesNext := none
          ratesWrite := if s.billing.ratesNext = some r then none else s.billing.ratesNext } }) ∧
  (∀ c ∈ ([(Instr.grantTier, true), (Instr.revokeTier, false)] : List ((Nat → Instr) × Bool)),
    ∀ (t : Nat) (s : State) (scope : Scope) (issue tier : Nat),
      let body := if c.2 then MsgBody.grantTier tier else .revokeTier tier
      Awaits s scope issue body →
      ∃ changed : BitVec 32 → BitVec 32,
        (∀ set i, i < 32 → (changed set).getLsbD i = if i = tier then c.2 else set.getLsbD i) ∧
        let s₀ := s.receiving scope issue body t
        let next (b : Billing) : Out := .next ({ s₀ with billing := b }.judgeHanded s.decoder.handed)
        exec (c.1 t) s = match s.billing.tierWrite with
          | some w => next { s.billing with tierNext := some (changed (s.billing.tierNext.getD w)) }
          | none =>
            if ∃ p, s.port.provision = some p ∧ p.newRoom = true then
              next { s.billing with tierNext := some (changed (s.billing.tierNext.getD s.cur.tiers)) }
            else if changed s.cur.tiers = s.cur.tiers then next s.billing
            else next { s.billing with tierWrite := some (changed s.cur.tiers) }) ∧
  (∀ (t : Nat) (s : State) (set : BitVec 32), s.power ≠ .off → s.billing.tierWrite = some set →
    ∃ s₁, exec (.tierWriteComplete t) s = .next s₁ ∧
      Reran allScreens
        { s.atInstant t with
          cur := { s.cur with tiers := set }
          store := { s.store with tiers := set }
          billing := { s.billing with
            tierNext := none
            tierWrite := if s.billing.tierNext = some set then none else s.billing.tierNext } } s₁)

/-! ## Chapter 4: keys and descrambling -/

/-- R61: descrambling keeps the payload's length, combines each of its 38 words with its keystream word by
exclusive-or, and undoes itself. -/
def Obligations.DescramblingFollowsTheKeystream : Prop :=
  ∀ (key : Key) (service count : Nat) (payload : List Byte), payload.length = 152 →
    (descramble key service count payload).length = 152 ∧
    (∀ j, j < 38 →
      let word := (key.toNat % 2 ^ 32 * (count * 64 + j + 1) + key.toNat / 2 ^ 32 + service) % 2 ^ 32
      leNat (((descramble key service count payload).drop (4 * j)).take 4) =
        leNat ((payload.drop (4 * j)).take 4) ^^^ word) ∧
    descramble key service count (descramble key service count payload) = payload

/-- R52, R53, R59, R60: GROUP_KEY, taken under the unit key, is an INSTALL of the unwrapped key when its check
byte passes, and is dropped, counted and raises KEY when it fails; with no unit key it changes nothing (log 21);
REVOKE_GROUP is a REVOKE. An operation is kept as the group's next one while another is in flight, or while a
PROVISION of a new room id is; one that would change nothing is not begun. At the completion of an INSTALL its
key is the group's access key, in use and durably; at that of a REVOKE the group holds no access key and no cell
key; the kept next operation is then taken, also where a PROVISION waits (the model's choice, log 49). -/
def Obligations.AccessOperationsFollowKeyMessages : Prop :=
  let taken (g : Nat) (op : AccessOp) (idle : Prop) (s s₁ : State) : Prop :=
    let k := s.keyGroup g
    if k.inFlight ≠ none ∨ ∃ p, s.port.provision = some p ∧ p.newRoom = true then
      s₁ = { s with keys := s.keys.set g { k with next := some op } }
    else (idle → s₁ = s) ∧ (¬ idle → s₁ = { s with keys := s.keys.set g { k with inFlight := some op } })
  (∀ (t : Nat) (s : State) (scope : Scope) (issue g : Nat) (wrapped : List Byte) (check : Byte) (unit : Key),
    Awaits s scope issue (.groupKey g wrapped check) → s.cur.unitKey = some unit →
    let s₀ := s.receiving scope issue (.groupKey g wrapped check) t
    let bytes := (keyBytes unit).zipWith (fun x y => x ^^^ y) wrapped
    let key := keyOfBytes bytes
    ∃ s₁, exec (.groupKey t) s = .next (s₁.judgeHanded s.decoder.handed) ∧
      if (bytes.map (·.toNat)).sum % 256 = check.toNat then taken g (.install key) (s.cur.accessKeys.getD g none = some key) s₀ s₁
      else s₁ = { s₀ with decoder :=
        { s₀.decoder with drops := min (s.decoder.drops + 1) 65535 } }.raise .key) ∧
  (∀ (t : Nat) (s : State) (scope : Scope) (issue g : Nat), Awaits s scope issue (.revokeGroup g) →
    ∃ s₁, exec (.revokeGroup t) s = .next (s₁.judgeHanded s.decoder.handed) ∧
      taken g .revoke
        (s.cur.accessKeys.getD g none = none ∧
          ∀ p, ((s.keyGroup g).slot p).current = none ∧ ((s.keyGroup g).slot p).pending = none)
        (s.receiving scope issue (.revokeGroup g) t) s₁) ∧
  (∀ (t : Nat) (s : State) (scope : Scope) (issue g : Nat) (wrapped : List Byte) (check : Byte),
    Awaits s scope issue (.groupKey g wrapped check) → s.cur.unitKey = none →
    exec (.groupKey t) s = .next
      ((s.receiving scope issue (.groupKey g wrapped check) t).judgeHanded s.decoder.handed)) ∧
  (∀ (t g : Nat) (s : State) (op : AccessOp), s.power ≠ .off → (s.keyGroup g).inFlight = some op →
    let held (r : Retained) : Retained :=
      { r with accessKeys := r.accessKeys.set g (match op with
        | .install key => some key
        | .revoke => none) }
    let ended (k : KeyGroup) : KeyGroup :=
      match op with
      | .install _ => { k with inFlight := none, next := none }
      | .revoke => ⟨none, none, ⟨none, none⟩, ⟨none, none⟩⟩
    let s₀ : State :=
      { s.atInstant t with
        cur := held s.cur
        store := held s.store
        keys := s.keys.set g (ended (s.keyGroup g)) }
    exec (match op with
        | .install _ => .accessKeyInstallComplete t g
        | .revoke => .groupRevokeComplete t g) s =
      .next (match (s.keyGroup g).next with
        | some next => s₀.takeAccessOp g next
        | none => s₀))

/-- R48, R52, R54, R56: KEY_DELIVERY, taken, is ignored where the group holds no access key, dropped, counted
and KEY raised where its check byte fails, and else judged against the record of its group and parity by the
six cases of R56, in their order, in the corner of log 59 too. -/
def Obligations.KeyDeliveryIsJudgedByEpochAndUse : Prop :=
  ∀ (t : Nat) (s : State) (scope : Scope) (issue g : Nat) (p : Parity) (e : Epoch) (wrapped : List Byte)
      (check : Byte), Awaits s scope issue (.keyDelivery g p e wrapped check) →
    let s₀ := s.receiving scope issue (.keyDelivery g p e wrapped check) t
    let slot := (s.keyGroup g).slot p
    ∃ s₁, exec (.keyDelivery t) s = .next (s₁.judgeHanded s.decoder.handed) ∧
      match s.cur.accessKeys.getD g none with
      | none => s₁ = s₀
      | some access =>
        let bytes := (keyBytes access).zipWith (fun x y => x ^^^ y) wrapped
        let key : CellKey := ⟨keyOfBytes bytes, e⟩
        let newer (c : Epoch) : Prop := 1 ≤ (e.toNat + 256 - c.toNat) % 256 ∧ (e.toNat + 256 - c.toNat) % 256 ≤ 127
        if (bytes.map (·.toNat)).sum % 256 ≠ check.toNat then
          s₁ = { s₀ with decoder := { s₀.decoder with drops := min (s.decoder.drops + 1) 65535 } }.raise .key
        else
          ∃ slot', s₁ = { s₀ with keys := s.keys.set g ((s.keyGroup g).setSlot slot' p) } ∧
            if (∃ c, slot.current = some c ∧ c.epoch = e) ∨ (∃ c, slot.pending = some c ∧ c.epoch = e) then
              slot' = slot
            else
              match slot.current with
              | none => slot' = { slot with current := some key }
              | some c =>
                (¬ newer c.epoch → slot' = slot) ∧
                (newer c.epoch → s.parityInUse g p = false → slot' = ⟨some key, none⟩) ∧
                (newer c.epoch → s.parityInUse g p = true →
                  (∀ q, slot.pending = some q → ¬ newer q.epoch → slot' = slot) ∧
                  ((∀ q, slot.pending = some q → newer q.epoch) → slot' = ⟨some c, some key⟩))

/-! ## Chapter 5: engine pool -/

/-- R69: the Pool answers an output that asks for a service by the first case that applies: the engine bound
to it; the lowest-numbered READY engine, ACTIVE for it at once; the lowest WARMING engine with no target; the
lowest OFF engine, powered for 40 ms; else a place in the wait list, at its tail where the service is new. -/
def Obligations.EngineRequestIsAnsweredByTheSixCases : Prop :=
  ∀ (o : Screen) (n : Nat) (s : State),
    let first (p : Engine → Prop) (e : EngineId) : Prop := p (s.engine e) ∧ ∀ d < e, ¬ p (s.engine d)
    let ofService (x : Engine) : Prop := x.bound = some n
    let ready (x : Engine) : Prop := ∃ i, x = .ready i
    let targetless (x : Engine) : Prop := ∃ d, x = .warming none d
    let isOff (x : Engine) : Prop := x = .off
    let holding (e : EngineId) (x : Engine) : State :=
      { s with
        pool := ⟨s.pool.engines.set x e, unwait o s.pool.wait⟩
        router := { s.router with outputs := s.router.outputs.set ((s.output o).hold e) o } }
    (∀ e, first ofService e → s.obtainEngine o n = holding e (s.engine e)) ∧
    ((∀ e, ¬ ofService (s.engine e)) →
      (∀ e, first ready e → s.obtainEngine o n = holding e (.active n none (some (s.time.now + 500)))) ∧
      ((∀ e, ¬ ready (s.engine e)) →
        (∀ e d, first targetless e → s.engine e = .warming none d →
          s.obtainEngine o n = holding e (.warming (some n) d)) ∧
        ((∀ e, ¬ targetless (s.engine e)) →
          (∀ e, first isOff e →
            s.obtainEngine o n = holding e (.warming (some n) (s.time.now + 40))) ∧
          ((∀ e, s.engine e ≠ .off) →
            let joined (w : WaitEntry) : WaitEntry :=
              if w.service = n ∧ o ∉ w.outputs then { w with outputs := w.outputs ++ [o] } else w
            s.obtainEngine o n = { s with pool := { s.pool with
              wait := if ∃ w ∈ s.pool.wait, w.service = n then s.pool.wait.map joined
                else s.pool.wait ++ [⟨n, [o]⟩] } }))))

/-- R71, R72, R73: an engine that no output holds is released: the oldest waiting service takes it, and the
outputs that waited hold it; with none waiting an ACTIVE engine is READY, under AUTO for 10 s, and a WARMING
one loses its target; keys of parities that leave use are promoted. R55, R57: a parity of a key group is in use while
an ACTIVE engine for a service of the group has it as its last parity; a pending key of a parity that is not becomes
current, and none is pending. R72, R91: an output that alone holds an engine
and moves to a scrambled service with no engine, while nothing waits, holds that engine in the end, bound to the
new service, whether the release or the new claim is taken first, and no other engine changes; that this holds
also beside an engine the six cases would find before it is log 58's choice. R69, R73: where the engine it leaves is
WARMING, a READY one, or a lower-numbered WARMING one with no target, takes the service instead, in either order too,
and the engine left has no target. R63, R64, R73, R74: at the end of its
warm-up an engine is ACTIVE for its target, or for the oldest waiting service, or READY; a READY engine is OFF at its
idle deadline; an ACTIVE engine's no-key deadline sets the condition and raises KEY. Before its instant none has
an effect. -/
def Obligations.ReleasedAndDueEnginesServeTheWaitList : Prop :=
  (∀ (s : State),
    (∀ g p, s.parityInUse g p = true ↔ ∃ e n noKeyAt r, s.engine e = .active n (some p) noKeyAt ∧
      s.service n = some r ∧ r.keyGroup = some g) ∧
    ∃ keys, s.promoteKeys = { s with keys := keys } ∧ keys.length = s.keys.length ∧
      ∀ (g : Nat) (k k' : KeyGroup), s.keys[g]? = some k → keys[g]? = some k' →
        k'.inFlight = k.inFlight ∧ k'.next = k.next ∧
        ∀ p, ((k.slot p).pending ≠ none → s.parityInUse g p = false → k'.slot p = ⟨(k.slot p).pending, none⟩) ∧
          (((k.slot p).pending = none ∨ s.parityInUse g p = true) → k'.slot p = k.slot p)) ∧
  (∀ (e : EngineId) (s : State),
    ((∃ o, (s.output o).engine = some e) → (s.releaseIfUnheld e).1 = s) ∧
    ((∀ o, (s.output o).engine ≠ some e) →
      let pooled (x : Engine) (wait : List WaitEntry) : State :=
        { s with pool := ⟨s.pool.engines.set x e, wait⟩ }
      let rest : Option Nat := if s.cur.settings.power = .auto then some (s.time.now + 10000) else none
      (∀ n last noKeyAt, s.engine e = .active n last noKeyAt →
        (s.pool.wait = [] → s.releaseIfUnheld e = ((pooled (.ready rest) []).promoteKeys, [])) ∧
        (∀ w ws, s.pool.wait = w :: ws → s.releaseIfUnheld e =
          (((pooled (.active w.service none (some (s.time.now + 500))) ws).holdAll e w.outputs).promoteKeys,
            w.outputs))) ∧
      (∀ target d, s.engine e = .warming target d →
        (s.pool.wait = [] → s.releaseIfUnheld e = ((pooled (.warming none d) []).promoteKeys, [])) ∧
        (∀ w ws, s.pool.wait = w :: ws → s.releaseIfUnheld e =
          (((pooled (.warming (some w.service) d) ws).holdAll e w.outputs).promoteKeys, w.outputs))))) ∧
  (∀ (o : Screen) (e : EngineId) (n : Nat) (basis : Basis) (s : State),
    s.judge o = (s, .passed n true basis) → (s.output o).engine = some e → s.engine e ≠ .off →
    (∀ p ≠ o, (s.output p).engine ≠ some e) → (∀ d, (s.engine d).bound ≠ some n) → s.pool.wait = [] →
    let moved (s₁ : State) : Prop :=
      let after (turns : List Turn) : State := (s.letGo [o]).takeTurns 32 turns
      s₁ = s.rerun [o] ∨ s₁ = after [.release e, .run o (some e)] ∨ s₁ = after [.run o (some e), .release e]
    let served (s₁ : State) (d : EngineId) : Prop :=
      s₁.pool.wait = [] ∧ (s₁.output o).engine = some d ∧ ∀ p ≠ o, (s₁.output p).engine = (s.output p).engine
    let active : Engine := .active n none (some (s.time.now + 500))
    let ready (d : EngineId) : Prop := ∃ deadline, s.engine d = .ready deadline
    let free (d : EngineId) : Prop := ∃ deadline, s.engine d = .warming none deadline
    let keeps : Prop := (∀ d, ¬ ready d) ∧ ∀ d < e, ¬ free d
    ((∀ target deadline, s.engine e ≠ .warming target deadline) → ∀ s₁, moved s₁ →
      served s₁ e ∧ s₁.engine e = active ∧ ∀ d ≠ e, s₁.engine d = s.engine d) ∧
    (∀ target deadline, s.engine e = .warming target deadline →
      (keeps → ∀ s₁, moved s₁ →
        served s₁ e ∧ s₁.engine e = .warming (some n) deadline ∧ ∀ d ≠ e, s₁.engine d = s.engine d) ∧
      (∀ d x, (ready d ∧ (∀ c < d, ¬ ready c) ∧ x = active ∨
          (∀ c, ¬ ready c) ∧ d < e ∧ (∀ c < d, ¬ free c) ∧ ∃ l, s.engine d = .warming none l ∧ x = .warming (some n) l) →
        ∀ s₁, moved s₁ → served s₁ d ∧ s₁.engine d = x ∧ s₁.engine e = .warming none deadline ∧
          ∀ c, c ≠ d → c ≠ e → s₁.engine c = s.engine c))) ∧
  (∀ (t : Nat) (e : EngineId) (s : State), s.power ≠ .off →
    let now := max s.time.now t
    let s₀ := s.atInstant t
    let pooled (x : Engine) (wait : List WaitEntry) : State :=
      { s₀ with pool := ⟨s.pool.engines.set x e, wait⟩ }
    let rest : Option Nat := if s.cur.settings.power = .auto then some (now + 10000) else none
    (∀ target d, s.engine e = .warming target d → ∃ s₁, exec (.warmUpEnd t e) s = .next s₁ ∧
      (now < d → s₁ = s₀) ∧
      (d ≤ now → ∀ n, target = some n →
        Reran (s.holders e) (pooled (.active n none (some (now + 500))) s.pool.wait).promoteKeys s₁) ∧
      (d ≤ now → target = none →
        (s.pool.wait = [] → Reran [] (pooled (.ready rest) []).promoteKeys s₁) ∧
        (∀ w ws, s.pool.wait = w :: ws →
          Reran w.outputs
            ((pooled (.active w.service none (some (now + 500))) ws).holdAll e w.outputs).promoteKeys s₁))) ∧
    (∀ d, s.engine e = .ready (some d) →
      exec (.idleDeadline t e) s = .next (if d ≤ now then pooled .off s.pool.wait else s₀)) ∧
    (∀ n last d, s.engine e = .active n last (some d) → ∃ s₁, exec (.noKeyDeadline t e) s = .next s₁ ∧
      if d ≤ now then Reran (s.routedTo n) ((pooled (.active n last none) s.pool.wait).raise .key) s₁
      else s₁ = s₀))


/-! ## Chapter 6: screens and the output router -/

/-- R81, R83, R84: a run of an output's verdict ends at the first case that applies, and leaves the output
with the decided state, the basis, the content-seen flag, the no-title state and the engine of that case. R85: a
report runs the verdict of each output it names, once, in some order (log 4), those slated JOURNAL_FULL or LIMIT in
the order it names them, which is ascending, and then those of the outputs that an engine freed meanwhile is handed
to (log 9); of an output that leaves no engine the report is just that run. The engine an output leaves by its route
is released in a turn of its own, and the run of that output may take it again (R72, R91; log 58). The model's
choices here: logs 17 and 42. -/
def Obligations.VerdictTakesTheFirstCaseThatApplies : Prop :=
  (∀ (outs : List Screen) (s : State),
    let left (o : Screen) : Option EngineId :=
      (s.output o).engine.filter fun e => (s.engine e).bound != (s.output o).route
    let slated (x : Turn) : Bool :=
      match x with
      | .run o _ => (s.output o).decided == .slate .journalFull || (s.output o).decided == .slate .limit
      | .release _ => false
    let runs : List Turn := outs.map fun o => .run o (left o)
    ∃ (turns : List Turn) (s₀ : State), s.rerun outs = s₀.takeTurns 32 turns ∧
      turns.Perm (((allEngines.filter fun e => outs.any fun o => left o == some e).map .release) ++ runs) ∧
      turns.filter slated = runs.filter slated ∧
      s₀ = { s with choices := s₀.choices, router := { s.router with outputs := s₀.router.outputs } } ∧
      ∀ o, s₀.output o = if o ∈ outs ∧ left o ≠ none then
        { s.output o with engine := none, contentSeen := false } else s.output o) ∧
  (∀ (s : State) (o : Screen) (e : EngineId) (n : Nat) (x : Turn) (xs : List Turn),
    s.takeTurns n [] = s ∧
    s.takeTurns (n + 1) (x :: xs) = (s.take x).1.takeTurns n (xs ++ (s.take x).2.map fun p => .run p none) ∧
    s.take (.release e) = s.releaseIfUnheld e ∧ s.take (.run o none) = s.verdict o ∧
    s.take (.run o (some e)) = State.verdict o (match (s.judge o).2 with
      | .passed m true _ => s.refit e m
      | _ => s)) ∧
  (∀ (s : State) (o : Screen),
    ((s.output o).engine = none ∨ ∃ e, (s.output o).engine = some e ∧ (s.engine e).bound = (s.output o).route) →
    s.rerun [o] = (s.verdict o).1.takeTurns 31 ((s.verdict o).2.map fun p => .run p none)) ∧
  ∀ (o : Screen) (s : State),
    let x := s.output o
    let s' := (s.verdict o).1
    let y := s'.output o
    let ended (decided : OutState) : Prop :=
      y.decided = decided ∧ y.contentSeen = false ∧ y.basis = none ∧ y.engine = none
    let titled : Prop := y.noTitleAt = none ∧ y.noInfo = false
    if x.present = false then ended .absent ∧ titled
    else match x.route with
      | none => ended .off ∧ titled
      | some n => match s.service n with
        | none => ended (.slate .noService) ∧ titled
        | some r =>
          if s.cur.room.suspended = true ∧ (r.keyGroup ≠ none ∨ r.kind ≠ .free) then
            ended (.slate .suspended) ∧ titled
          else if s.noSignal n = true then ended (.slate .noSignal) ∧ titled
          else if r.kind = .film ∧ s.titleOf n = none then
            ended (if x.noInfo then .slate .noInfo else .tuning) ∧ y.noInfo = x.noInfo ∧
              y.noTitleAt =
                if x.noInfo then x.noTitleAt else some (x.noTitleAt.getD (s.time.now + 8000))
          else if s.locked n o = true then ended (.slate .lock) ∧ titled
          else match (s.access n r).2 with
            | .refuse reason => ended (.slate reason) ∧ titled
            | .pass basis => titled ∧
              let plays : Prop :=
                y.decided = (if y.contentSeen then .playing basis else .tuning) ∧ y.basis = some basis
              let waits (decided : OutState) : Prop :=
                y.decided = decided ∧ y.contentSeen = false ∧ y.basis = none
              match r.keyGroup, y.engine with
              | none, _ => plays ∧ y.engine = none ∧
                  y.contentSeen = (x.contentSeen && decide (x.engine = none))
              | some _, none =>
                waits (.slate .wait) ∧ ∃ w ∈ s'.pool.wait, w.service = n ∧ o ∈ w.outputs
              | some _, some e =>
                let kept : Prop := y.contentSeen =
                  (x.contentSeen && decide (x.engine = some e ∧ (s.engine e).bound = some n))
                (s'.engine e).bound = some n ∧
                match s'.engine e with
                | .active _ _ none => y.decided = .slate .noKey ∧ y.basis = none ∧ kept
                | .active _ _ (some _) => plays ∧ kept
                | _ => waits .tuning

/-- R82, R99, R101, R104, R133, R136: what a verdict asks. The effective rating of a service, and when the service
is locked for an output. The access stage judges the kind of the lineup record; for a METERED service in an
occupied room with property time set, by the steps of R136. R129: a title's preview is exhausted when its seconds
used have reached the allowance. R148: the free slots, by the places and the numbers that remain. -/
def Obligations.LockAndAccessJudgeTheService : Prop :=
  (∀ (s : State) (t : Nat),
    (∀ before p after, s.cur.previews = before ++ p :: after → p.title = t → (∀ q ∈ before, q.title ≠ t) →
      (s.exhausted t = true ↔ s.cur.policy.preview ≤ p.used)) ∧
    ((∀ p ∈ s.cur.previews, p.title ≠ t) → (s.exhausted t = true ↔ s.cur.policy.preview = 0)) ∧
    (s.freeSlots : Int) =
      let promised : Int := s.cur.reserved + s.journal.pendingRecord
      max 0 (min (64 - s.cur.records.length - promised) (4294967296 - s.cur.nextNumber - promised))) ∧
  (∀ (s : State) (n : Nat) (o : Screen),
    (s.service n = none → s.effectiveRating n = none ∧ s.locked n o = false) ∧
    (∀ r, s.service n = some r →
      let base :=
        match s.cur.policy.source, s.descriptorRatingOf n with
        | .descriptor, some d => d
        | _, _ => r.rating
      let effective :=
        match (s.titleOf n).bind s.titleRecord with
        | some t => max base t.rating
        | none => base
      let covered : Prop := s.lock.room ≠ none ∨ s.lock.screens.get o ≠ none
      s.effectiveRating n = some effective ∧
      (s.locked n o = true ↔ s.cur.lock.ceiling < effective ∧
        (¬ covered ∨ effective = 5 ∧ s.cur.lock.barred = true)))) ∧
  (∀ (n : Nat) (r : Service) (s : State),
    let occupied : Prop := s.cur.room.state = .occupied ∧ s.room.checkOut = none
    match r.kind with
    | .free => s.access n r = (s, .pass .free)
    | .tier t => s.access n r = (s, if s.cur.tiers.getLsbD t then .pass .tier else .refuse .unpaid)
    | .film =>
      (s.titleOf n = none → s.access n r = (s, .refuse .unpaid)) ∧
      (∀ t, s.titleOf n = some t → s.access n r = (s,
        if ∃ p ∈ s.cur.purchases, p.title = t then .pass .purchase
        else if occupied ∧ s.exhausted t = false then .pass .preview
        else .refuse .unpaid))
    | .metered terms =>
      ((¬ occupied ∨ s.time.property = none) → s.access n r = (s, .refuse .unpaid)) ∧
      (∀ time, occupied → s.time.property = some time →
        (∀ x, s.session n = some x → s.access n r = (s,
          if x.closing = none then .pass .metered
          else if x.closing = some .limit then .refuse .limit
          else .refuse .journalFull)) ∧
        (s.session n = none → 4 ≤ s.cur.meter.length →
          let idle (x : Session) : Prop := x.idle = true ∧ x.closing = none
          let evicting : Prop := ∃ x ∈ s.cur.meter, x.closing = some .eviction
          ((evicting ∨ ∀ x ∈ s.cur.meter, ¬ idle x) → s.access n r = (s, .refuse .journalFull)) ∧
          (∀ before x after, ¬ evicting → s.cur.meter = before ++ x :: after →
            (∀ y ∈ before, ¬ idle y) → idle x →
            s.access n r = (s.beginClose x.service .eviction, .refuse .journalFull))) ∧
        (s.session n = none → s.cur.meter.length < 4 →
          let net := if terms.cap = 0 then terms.price else min terms.price (terms.cap - s.daySpendOf n)
          let committed := s.cur.room.spend + s.room.pendingCharge + accruedTotal s.cur.meter
          if s.freeSlots = 0 then s.access n r = (s, .refuse .journalFull)
          else if s.cur.room.limit < committed + (net + (net * s.cur.rates.tax + 5000) / 10000) then
            s.access n r = (s, .refuse .limit)
          else
            let x : Session :=
              ⟨n, s.cur.room.folio.getD 0, time, s.cur.rates.tax, 0, 0, 0, 0, true,
                some (s.time.now + 120000), none⟩
            let s₁ : State :=
              { s with cur :=
                { s.cur with meter := s.cur.meter ++ [x], reserved := s.cur.reserved + 1 } }
            s.access n r = (s₁.occupancyRose.meterChanged, .pass .metered))))

/-- R22, R89, R90, R91, R93, R111: TUNE and SCREEN_OFF, begun, are refused BAD_ARGUMENT, staged while a hold
runs, or applied when they change the route; a SCREEN_OFF without a hold also ends its screen's unlock. A
change of route recomputes the filter set: a service in use keeps its record or gets an empty one. The model's
choices here: log 40. -/
def Obligations.TuneAndScreenOffAreStagedOrApplied : Prop :=
  let routed (o : Screen) (route : Option Nat) (t : Nat) (s : State) : State :=
    let y : Output :=
      { s.output o with
        route := route, staged := none, contentSeen := false, noTitleAt := none, noInfo := false,
        playSeconds := 0 }
    { s.atInstant t with router := { s.router with outputs := s.router.outputs.set y o } }
  let staged (o : Screen) (g : Staged) (t : Nat) (s : State) : State :=
    { s.atInstant t with router := { s.router with
        outputs := s.router.outputs.set ({ s.output o with staged := some g } : Output) o } }
  (∀ (t : Nat) (s : State) (r : Request), Begins 0x0C .everyMode s r →
    let screen := field 0 1 r.body
    let target := field 2 2 r.body
    let resolves (n : Nat) : Prop :=
      field 1 1 r.body = 0 ∧ (∃ v, (s.billing.lineup.find? fun v => v.position == target) = some v ∧ v.number = n)
        ∨ field 1 1 r.body = 1 ∧ target = n ∧ 1 ≤ n ∧ n ≤ 4094
    ((screen < 1 ∨ 4 < screen ∨ ∀ n, ¬ resolves n) →
      exec (.tune t) s = .next ((s.atInstant t).reply .badArgument [])) ∧
    (∀ (o : Screen) (n : Nat), screen = o.val + 1 → resolves n →
      ∃ s₁, exec (.tune t) s = .next (s₁.reply .ok (leBytes 2 n)) ∧
        (s.router.hold ≠ none → s₁ = staged o (.service n) t s) ∧
        (s.router.hold = none → (s.output o).route = some n → s₁ = s.atInstant t) ∧
        (s.router.hold = none → (s.output o).route ≠ some n →
          Reran [o] (routed o (some n) t s).refilter s₁))) ∧
  (∀ (t : Nat) (s : State) (r : Request), Begins 0x0D .everyMode s r →
    let screen := field 0 1 r.body
    ((screen < 1 ∨ 4 < screen) → exec (.screenOff t) s = .next ((s.atInstant t).reply .badArgument [])) ∧
    (∀ o : Screen, screen = o.val + 1 → ∃ s₁, exec (.screenOff t) s = .next (s₁.reply .ok []) ∧
      let unlocked : Lock := { s.lock with screens := s.lock.screens.set none o }
      (s.router.hold ≠ none → s₁ = staged o .off t s) ∧
      (s.router.hold = none → (s.output o).route = none →
        Reran allScreens { s.atInstant t with lock := unlocked } s₁) ∧
      (s.router.hold = none → (s.output o).route ≠ none → ∃ s₂,
        Reran [o] (routed o none t s).refilter s₂ ∧ Reran allScreens { s₂ with lock := unlocked } s₁))) ∧
  (∀ (s : State), s.refilter = { s with cells := s.refilter.cells } ∧
    s.refilter.cells.enabled = s.cells.enabled ∧
    ((s.cells.programmes.map (·.service)).Nodup → (s.refilter.cells.programmes.map (·.service)).Nodup) ∧
    ∀ n, s.refilter.programme n =
      if ∃ o, (s.output o).present = true ∧ (s.output o).route = some n then
        some ((s.programme n).getD ⟨n, none, none, none, none, 0, false, s.time.now + 2000⟩)
      else none)

/-- R92, R94: ROUTE_HOLD starts a hold of 2 s, or restarts its deadline; a ROUTE_RELEASE or the deadline
applies every staged route that differs, ends the unlock of each screen staged NONE, and ends the hold. The
model's choices here: log 40. -/
def Obligations.RouteHoldGathersRoutesUntilItEnds : Prop :=
  let ended (t : Nat) (s s₁ : State) : Prop :=
    let applied (x : Output) : Output :=
      match x.staged with
      | none => x
      | some g =>
        let route := match g with
          | .service n => some n
          | .off => none
        if route = x.route then { x with staged := none }
        else { x with
          route := route, staged := none, contentSeen := false, noTitleAt := none, noInfo := false,
          playSeconds := 0 }
    let off (o : Screen) : Prop := (s.output o).staged = some .off
    let unlock (o : Screen) : Option Unlock :=
      if (s.output o).staged = some .off then none else s.lock.screens.get o
    let routed : State :=
      { s.atInstant t with router := { s.router with hold := none, outputs := s.router.outputs.map applied } }
    let s₀ : State :=
      { routed.refilter with lock := { s.lock with screens := ⟨unlock 0, unlock 1, unlock 2, unlock 3⟩ } }
    ((∃ o, off o) → Reran allScreens s₀ s₁) ∧
    ((∀ o, ¬ off o) → Reran (allScreens.filter fun o => (applied (s.output o)).route != (s.output o).route) s₀ s₁)
  (∀ (t : Nat) (s : State) (r : Request), Begins 0x0E .everyMode s r →
    exec (.routeHold t) s = .next
      ({ s.atInstant t with router := { s.router with hold := some (max s.time.now t + 2000) } }.reply .ok [])) ∧
  (∀ (t : Nat) (s : State) (r : Request), Begins 0x0F .everyMode s r →
    ∃ s₁, exec (.routeRelease t) s = .next (s₁.reply .ok []) ∧
      (s.router.hold = none → s₁ = s.atInstant t) ∧ (s.router.hold ≠ none → ended t s s₁)) ∧
  (∀ (t d : Nat) (s : State), s.power ≠ .off → s.router.hold = some d →
    ∃ s₁, exec (.routeHoldDeadline t) s = .next s₁ ∧
      (max s.time.now t < d → s₁ = s.atInstant t) ∧ (d ≤ max s.time.now t → ended t s s₁))

/-- R86, R87, R88, R97, R110, R140: at a frame boundary every shown state takes its decided state, ROUTE is
raised once for each that changed, and where anything shown changes, the deferred lapses of the unlocks that
cover such an output are judged and meter sessions go between PLAYING and IDLE; while the outputs are dark nothing
is shown. The next boundary is one interval on. The model's choices here: logs 13 and 18, log 35 (closing sessions
go between PLAYING and IDLE too) and log 61 (lapses are judged before sessions). -/
def Obligations.FrameBoundaryShowsTheDecidedStates : Prop :=
  ∀ (t : Nat) (s : State), s.power ≠ .off → ∃ s₁, exec (.frameBoundary t) s = .next s₁ ∧
    let now := max s.time.now t
    let interval := if s.cur.settings.frameRate = 60 then 50 else 60
    let s₀ : State :=
      { s.atInstant t with time := { s.time with now := now, nextFrame := s.time.nextFrame + interval } }
    let changed := allScreens.filter fun o => (s.output o).shown != (s.output o).decided
    let moved := allScreens.filter fun o => (s.output o).shownService != (s.output o).route
    let shown : State :=
      { s₀ with router := { s.router with outputs := s.router.outputs.map fun x =>
          { x with shown := x.decided, shownService := x.route } } }
    let told := shown.raiseTimes .route changed.length
    if 3 * now < s.time.nextFrame then s₁ = s.atInstant t
    else if s.router.dark = true then s₁ = s₀
    else if changed = [] ∧ moved = [] then s₁ = told
    else ∃ s₂,
      s₂ = told.judgeLapses (fun o => (s.output o).shown != (s.output o).decided ||
        (s.output o).shownService != (s.output o).route) ∧
      OnlyLapses told s₂ ∧
      let shows (n : Nat) : Prop :=
        ∃ o, (s₂.output o).shown = .playing .metered ∧ (s₂.output o).shownService = some n
      ∃ meter : List Session, List.Forall₂ (fun x y =>
          (shows x.service → x.idle = true → y = { x with idle := false, rejoin := none }) ∧
          (¬ shows x.service → x.idle = false → y = { x with idle := true, rejoin := some (now + 120000) }) ∧
          ((shows x.service ↔ x.idle = false) → y = x)) s₂.cur.meter meter ∧
        let s₃ : State := { s₂ with cur := { s₂.cur with meter := meter } }
        if meter = s₂.cur.meter then s₁ = s₂
        else if s₂.goingIdle = [] then s₁ = s₃.meterChanged
        else Reran (s₃.meterChanged.routedOrFull s₂.goingIdle) s₃.meterChanged s₁

/-- R84, R95, R96: a display is taken as gone or back on the second probe in a row that disagrees, with
SCREEN raised, the filter set recomputed and the verdict run; the no-title deadline sets the no-info flag. -/
def Obligations.PresenceAndNoTitleFollowTheirProbesAndDeadlines : Prop :=
  ∀ (t : Nat) (o : Screen) (s : State), s.power ≠ .off →
    let now := max s.time.now t
    let x := s.output o
    let with' (y : Output) : State :=
      { s.atInstant t with router := { s.router with outputs := s.router.outputs.set y o } }
    (∀ display : Bool, ∃ s₁, exec (.presenceProbe t o display) s = .next s₁ ∧
      if now < x.probedAt + s.cur.settings.probe * 1000 then s₁ = s.atInstant t
      else if x.present = display then s₁ = with' { x with probedAt := now, candidate := 0 }
      else if x.candidate = 0 then s₁ = with' { x with probedAt := now, candidate := 1 }
      else Reran [o] ((with' { x with
          probedAt := now, present := display, candidate := 0,
          contentSeen := x.contentSeen && !display }).raise .screen).refilter s₁) ∧
    (∀ d, x.noTitleAt = some d → ∃ s₁, exec (.noTitleDeadline t o) s = .next s₁ ∧
      if now < d then s₁ = s.atInstant t
      else Reran [o] (with' { x with noTitleAt := none, noInfo := true }) s₁)

/-! ## Chapter 7: rating lock -/

/-- R102, R103, R105, R109, R110: PIN_RESET, SET_CEILING and BAR, taken, begin a durable write of what they
change, and change nothing where they change nothing; at its completion the change is in use and durable, a
ceiling or bar runs every verdict, and a ceiling judges deferred lapses. Once the lock is free of a write, a
waiting Room Controller write begins first, and then an owed clearing of the lockout flag. The model's choices
here: log 12 (the ceiling a waiting new folio's write takes is the default as the write begins) and log 51 (the
owed clearing comes before the waiting messages). -/
def Obligations.LockMessagesTakeEffectAtTheirWritesCompletion : Prop :=
  (∀ (t : Nat) (s : State) (scope : Scope) (issue : Nat) (body : MsgBody),
    Awaits s scope issue body → s.lockSettled = true →
    let l := s.cur.lock
    let s₀ := s.receiving scope issue body t
    let begins (w : LockWrite) : State := { s₀ with lock := { s.lock with write := some w } }
    (∀ pin, body = .pinReset pin → exec (.pinReset t) s = .next (
      (if l.pin = pin ∧ l.failures = 0 ∧ l.lockouts = 0 ∧ l.running = false then s₀
      else begins (.pinReset pin)).judgeHanded s.decoder.handed)) ∧
    (∀ c, body = .setCeiling c → exec (.setCeiling t) s = .next (
      (if l.ceiling = c then s₀ else begins (.ceiling c)).judgeHanded s.decoder.handed)) ∧
    (∀ on, body = .bar on → exec (.bar t) s = .next (
      (if l.barred = on then s₀ else begins (.bar on)).judgeHanded s.decoder.handed))) ∧
  (∀ (t : Nat) (s : State) (w : LockWrite), s.power ≠ .off → s.lock.write = some w →
    let written (f : LockRecord → LockRecord) : State :=
      { s.atInstant t with
        cur := { s.cur with lock := f s.cur.lock }
        store := { s.store with lock := f s.store.lock }
        lock := { s.lock with write := none } }
    (∀ c, w = .ceiling c → ∃ s₂, Reran allScreens (written fun l => { l with ceiling := c }) s₂ ∧
      exec (.ceilingWriteComplete t) s = .next (s₂.judgeLapses fun _ => true).lockFreed) ∧
    (∀ on, w = .bar on → ∃ s₁, Reran allScreens (written fun l => { l with barred := on }) s₁ ∧
      exec (.barWriteComplete t) s = .next s₁.lockFreed) ∧
    (∀ pin, w = .pinReset pin →
      let reset : State := { written (fun l =>
          { l with pin := pin, failures := 0, lockouts := 0, running := false }) with
        lock := { s.lock with write := none, lockoutAt := none, clearOwed := false } }
      exec (.pinResetWriteComplete t) s =
        .next (if s.cur.lock.running then reset.raise .lock else reset).lockFreed)) ∧
  (∀ (s : State), s.lockBusy = false →
    (∀ w, s.room.write = some ⟨w, false⟩ → s.lockFreed =
      { s with room := { s.room with write := some ⟨w.latch s.cur.policy.ceiling, true⟩ } }) ∧
    ((∀ w, s.room.write ≠ some ⟨w, false⟩) → s.lockFreed =
      if s.lock.clearOwed then
        { s with lock := { s.lock with clearOwed := false, write := some .lockoutClear } }
      else s))

/-- R106, R107, R108: UNLOCK and SET_PIN, begun, are judged by their checks in order; a correct UNLOCK with
no failure counted grants at once, and every other attempt that reaches the PIN begins a durable write. -/
def Obligations.UnlockAndSetPinAreJudgedByTheirChecks : Prop :=
  let refused (st : Status) (fields : List Byte) (t : Nat) (s : State) : Out :=
    .next ((s.atInstant t).reply st fields)
  let begins (w : LockWrite) (t : Nat) (s : State) : Out :=
    .next { s.atInstant t with
      lock := { s.lock with write := some w }, port := { s.port with executing := true } }
  let lockedOut (t : Nat) (s : State) : List Byte :=
    leBytes 4 ((s.lock.lockoutAt.getD 0 - max s.time.now t) / 1000)
  (∀ (t : Nat) (s : State) (r : Request), Begins 0x14 .guest s r →
    let scope := field 0 1 r.body
    let screen := field 1 1 r.body
    let formed : Prop := scope = 1 ∨ scope = 0 ∧ 1 ≤ screen ∧ screen ≤ 4
    ((¬ formed ∨ pinOfBytes (fieldBytes 2 4 r.body) = none) →
      exec (.unlock t) s = refused .badArgument [] t s) ∧
    (∀ pin, formed → pinOfBytes (fieldBytes 2 4 r.body) = some pin →
      (s.cur.lock.running = true → exec (.unlock t) s = refused .lockedOut (lockedOut t s) t s) ∧
      (s.cur.lock.running = false →
        (s.cur.lock.pin = none → exec (.unlock t) s = refused .noPin [] t s) ∧
        (∀ held, s.cur.lock.pin = some held →
          (held ≠ pin → exec (.unlock t) s = begins .failure t s) ∧
          (held = pin → s.cur.lock.failures ≠ 0 →
            exec (.unlock t) s = begins (.unlock (scope == 1) screen) t s) ∧
          (held = pin → s.cur.lock.failures = 0 →
            let granted := s.lock.granted (scope == 1) screen (max s.time.now t) s.cur.policy
            ∃ s₁, Reran allScreens { s.atInstant t with lock := granted } s₁ ∧
              exec (.unlock t) s = .next (s₁.reply .ok
                (byte scope :: byte screen :: leBytes 4
                  (if scope = 1 then s.cur.policy.roomUnlockHours * 3600
                  else s.cur.policy.unlockMinutes * 60)))))))) ∧
  (∀ (t : Nat) (s : State) (r : Request), Begins 0x15 .guest s r →
    let old := carriedPin (field 0 1 r.body) (fieldBytes 1 4 r.body)
    let new := carriedPin (field 5 1 r.body) (fieldBytes 6 4 r.body)
    ((old = none ∨ new = none ∨ new = some none) → exec (.setPin t) s = refused .badArgument [] t s) ∧
    (∀ o n, old = some o → new = some (some n) →
      (s.cur.lock.running = true → exec (.setPin t) s = refused .lockedOut (lockedOut t s) t s) ∧
      (s.cur.lock.running = false → exec (.setPin t) s =
        if s.cur.lock.pin ≠ none ∧ s.cur.lock.pin ≠ o then begins .failure t s
        else begins (.setPin n) t s)))

/-- R106, R107, R108: at its completion a failure counts, and the third in a row starts a lockout, with its
duration by the lockout count; a correct PIN clears the failures, and grants the unlock or sets the PIN. -/
def Obligations.PinWritesTakeEffectAtCompletion : Prop :=
  ∀ (t : Nat) (s : State) (w : LockWrite), s.power ≠ .off → s.lock.write = some w →
    let now := max s.time.now t
    let written (f : LockRecord → LockRecord) : State :=
      { s.atInstant t with
        cur := { s.cur with lock := f s.cur.lock }
        store := { s.store with lock := f s.store.lock }
        lock := { s.lock with write := none } }
    let free : Lock := { s.lock with write := none }
    let failed (l : LockRecord) : LockRecord :=
      if l.failures = 0 then { l with failures := 1 }
      else if l.failures = 1 then { l with failures := 2 }
      else { l with failures := 0, lockouts := min (l.lockouts + 1) 255, running := true }
    let count := min (s.cur.lock.lockouts + 1) 255
    let minutes := if count = 1 then 15 else if count = 2 then 30 else if count = 3 then 60 else 120
    let locked : State :=
      { written failed with lock :=
        { s.lock with write := none, lockoutAt := some (now + minutes * 60000) } }
    (w = .failure → exec (.pinFailureWriteComplete t) s = .next (
      if s.cur.lock.failures < 2 then
        ((written failed).reply .badPin (byte (s.cur.lock.failures + 1) :: [0xFF, 0xFF, 0xFF, 0xFF])).lockFreed
      else ((locked.raise .lock).reply .badPin (0 :: leBytes 4 (minutes * 60))).lockFreed)) ∧
    (∀ pin, w = .setPin pin → exec (.setPinWriteComplete t) s =
      .next ((written fun l => { l with pin := some pin, failures := 0 }).reply .ok []).lockFreed) ∧
    (∀ room screen, w = .unlock room screen → (room = true ∨ 1 ≤ screen ∧ screen ≤ 4) →
      ∃ s₁, Reran allScreens { written (fun l => { l with failures := 0 }) with
          lock := free.granted room screen now s.cur.policy } s₁ ∧
        exec (.unlockWriteComplete t) s = .next (s₁.reply .ok
          (byte (if room then 1 else 0) :: byte screen :: leBytes 4
            (if room then s.cur.policy.roomUnlockHours * 3600
            else s.cur.policy.unlockMinutes * 60))).lockFreed) ∧
    (w = .lockoutClear → exec (.lockoutClearWriteComplete t) s = .next (
      { s.atInstant t with
        store := { s.store with lock := { s.store.lock with running := false } }
        lock := { s.lock with write := none } } : State).lockFreed)

/-- R109, R110, R111: a lockout ends at its deadline in use, and its clearing is written at once or owed; an
unlock lapses at its end instant, with LOCK raised and every verdict run, unless an output it covers shows
above-ceiling content, which defers the lapse; a deferred lapse, judged again at an event that concerns an output
it covers, comes when none does; RELOCK ends unlocks at once. The model's choices here: log 18 (what an output
shows is on the service its shown state was decided for) and log 40. -/
def Obligations.LockoutsAndUnlocksEnd : Prop :=
  let showsAbove (s : State) (o : Screen) : Prop := ∃ b n e, (s.output o).shown = .playing b ∧
    (s.output o).shownService = some n ∧ s.effectiveRating n = some e ∧ s.cur.lock.ceiling < e
  let unlockOf (s : State) : Option Screen → Option Unlock
    | none => s.lock.room
    | some o => s.lock.screens.get o
  let setUnlock (l : Lock) (u : Option Unlock) : Option Screen → Lock
    | none => { l with room := u }
    | some o => { l with screens := l.screens.set u o }
  let covers (which : Option Screen) (o : Screen) : Prop := which = none ∨ which = some o
  (∀ (t d : Nat) (s : State), s.power ≠ .off → s.lock.lockoutAt = some d →
    let ended (l : Lock) : State :=
      { s.atInstant t with
        cur := { s.cur with lock := { s.cur.lock with running := false } }
        lock := l }
    exec (.lockoutDeadline t) s = .next (
      if max s.time.now t < d then s.atInstant t
      else if s.lockBusy then (ended { s.lock with lockoutAt := none, clearOwed := true }).raise .lock
      else (ended { s.lock with lockoutAt := none, write := some .lockoutClear }).raise .lock)) ∧
  (∀ (t : Nat) (s : State) (which : Option Screen) (u : Unlock), s.power ≠ .off →
    unlockOf s which = some u → ∃ s₁, exec (.unlockEndInstant t which) s = .next s₁ ∧
      ((u.deferred = true ∨ max s.time.now t < u.endAt) → s₁ = s.atInstant t) ∧
      (u.deferred = false → u.endAt ≤ max s.time.now t →
        ((∃ o, covers which o ∧ showsAbove s o) →
          s₁ = { s.atInstant t with lock := setUnlock s.lock (some { u with deferred := true }) which }) ∧
        ((∀ o, covers which o → ¬ showsAbove s o) →
          let lapsed : State := { s.atInstant t with lock := setUnlock s.lock none which }
          Reran allScreens (lapsed.raise .lock) s₁))) ∧
  (∀ (s : State) (concerned : Screen → Bool),
    let lapses (which : Option Screen) : Prop :=
      (∃ u, unlockOf s which = some u ∧ u.deferred = true) ∧ (∃ o, covers which o ∧ concerned o = true) ∧
        ∀ o, covers which o → ¬ showsAbove s o
    ((∀ which, ¬ lapses which) → s.judgeLapses concerned = s) ∧
    ((∃ which, lapses which) →
      ∃ gone : List (Option Screen), gone.Nodup ∧ (∀ which, which ∈ gone ↔ lapses which) ∧
        ∃ s₀ : State, s₀ = { s with lock := s₀.lock } ∧
          (∀ which, unlockOf s₀ which = if which ∈ gone then none else unlockOf s which) ∧
          Reran allScreens (s₀.raiseTimes .lock gone.length) (s.judgeLapses concerned))) ∧
  (∀ (t : Nat) (s : State) (r : Request), Begins 0x10 .everyMode s r →
    let scope := field 0 1 r.body
    let screen := field 1 1 r.body
    ((1 < scope ∨ scope = 0 ∧ (screen < 1 ∨ 4 < screen)) →
      exec (.relock t) s = .next ((s.atInstant t).reply .badArgument [])) ∧
    (scope = 1 → ∃ s₁, exec (.relock t) s = .next (s₁.reply .ok []) ∧
      Reran allScreens { s.atInstant t with
        lock := { s.lock with room := none, screens := ⟨none, none, none, none⟩ } } s₁) ∧
    (∀ o : Screen, scope = 0 → screen = o.val + 1 → ∃ s₁, exec (.relock t) s = .next (s₁.reply .ok []) ∧
      Reran allScreens { s.atInstant t with
        lock := { s.lock with screens := s.lock.screens.set none o } } s₁))

/-! ## Chapter 8: catalogue, purchases and previews -/

/-- R42, R114, R115, R116: a LINEUP part of a new version empties the lineup and starts the assembly; a part
not yet held of the version held joins it; its records are judged and added one by one, and a change of a
service's record is reported. The model's choices here: logs 19, 47 and 57. -/
def Obligations.LineupPartsAreAssembledAndTheirRecordsAdded : Prop :=
  (∀ (t : Nat) (s : State) (scope : Scope) (issue version index count : Nat) (records : List RawService),
    Awaits s scope issue (.lineup version index count records) →
    let s₀ := s.receiving scope issue (.lineup version index count records) t
    let held (s : State) (a : Assembly) : State := { s with decoder := { s.decoder with lineup := a } }
    let added (s : State) : State := records.foldl (fun s raw => s.addService raw) s
    let a := s.decoder.lineup
    ∃ s₁, exec (.lineup t) s = .next (s₁.judgeHanded s.decoder.handed) ∧
      (a.version ≠ some version → ∃ s₂,
        let emptied := ({ s₀ with billing := { s.billing with lineup := [] } } : State).promoteKeys
        LapsedAndReran (emptied.rerated s) allScreens emptied s₂ ∧
        s₁ = added (held s₂ ⟨some version, count, [index]⟩)) ∧
      (a.version = some version → index ∈ a.held → s₁ = s₀) ∧
      (a.version = some version → index ∉ a.held → a.parts ≠ count →
        s₁ = { s₀ with decoder := { s₀.decoder with drops := min (s.decoder.drops + 1) 65535 } }) ∧
      (a.version = some version → index ∉ a.held → a.parts = count →
        s₁ = added (held s₀ { a with held := a.held ++ [index] }))) ∧
  (∀ raw : RawService,
    (raw.judge = none ↔ raw.service = 0 ∨ 4094 < raw.service ∨ raw.position = 0 ∨ 999 < raw.position ∨
      3 < raw.kind ∨ raw.kind = 1 ∧ 31 < raw.tier ∨ 1 < raw.scrambled ∨
      raw.scrambled = 1 ∧ 15 < raw.keyGroup) ∧
    ∀ x, raw.judge = some x → x.number = raw.service ∧ x.position = raw.position ∧
      x.rating = min 5 raw.rating ∧
      x.keyGroup = (if raw.scrambled = 1 then some raw.keyGroup else none) ∧
      match x.kind with
      | .free => raw.kind = 0
      | .tier tier => raw.kind = 1 ∧ tier = raw.tier
      | .film => raw.kind = 2
      | .metered m => raw.kind = 3 ∧ m.minutes = max 1 (min 60 raw.minutes) ∧
        m.price = min 9999 raw.price ∧ m.cap = min 999999 raw.cap ∧ m.free = min 600 raw.free) ∧
  (∀ (raw : RawService) (s : State),
    (raw.judge = none → s.addService raw = s) ∧
    ∀ x, raw.judge = some x →
      let old := s.billing.lineup
      let ninth : Prop := x.kind.isMetered = true ∧ 8 ≤ meteredCount old
      let heldMetered : Prop := ∃ y, s.service x.number = some y ∧ y.kind.isMetered = true
      let changed (l : List Service) : Prop :=
        let base : State := ({ s with billing := { s.billing with lineup := l } } : State).promoteKeys
        LapsedAndReran (base.rerated s) (base.routedTo x.number) base (s.addService raw)
      if ∃ y ∈ old, y.position = x.position ∧ y.number ≠ x.number then s.addService raw = s
      else if s.service x.number = none ∧ (96 ≤ old.length ∨ ninth) then s.addService raw = s
      else if s.service x.number ≠ none ∧ ninth ∧ ¬ heldMetered then
        changed (old.filter fun y => y.number != x.number)
      else ∃ l, changed l ∧ (∀ y, y ∈ l ↔ y = x ∨ y ∈ old ∧ y.number ≠ x.number) ∧
        (old.Pairwise (fun y z => y.number < z.number) → l.Pairwise fun y z => y.number < z.number))

/-- R43, R117: a CATALOGUE part is assembled as a LINEUP part is; a title record is clamped, replaces the one
held, or is added while there is room, and the change runs every verdict. The model's choices here: logs 19 and
57. -/
def Obligations.CataloguePartsAreAssembledAndTheirRecordsAdded : Prop :=
  (∀ (t : Nat) (s : State) (scope : Scope) (issue version index count : Nat) (records : List RawTitle),
    Awaits s scope issue (.catalogue version index count records) →
    let s₀ := s.receiving scope issue (.catalogue version index count records) t
    let held (s : State) (a : Assembly) : State := { s with decoder := { s.decoder with catalogue := a } }
    let added (s : State) : State := records.foldl (fun s raw => s.addTitle raw) s
    let a := s.decoder.catalogue
    ∃ s₁, exec (.catalogue t) s = .next (s₁.judgeHanded s.decoder.handed) ∧
      (a.version ≠ some version → ∃ s₂,
        let emptied : State := { s₀ with billing := { s.billing with catalogue := [] } }
        LapsedAndReran (emptied.rerated s) allScreens emptied s₂ ∧
        s₁ = added (held s₂ ⟨some version, count, [index]⟩)) ∧
      (a.version = some version → index ∈ a.held → s₁ = s₀) ∧
      (a.version = some version → index ∉ a.held → a.parts ≠ count →
        s₁ = { s₀ with decoder := { s₀.decoder with drops := min (s.decoder.drops + 1) 65535 } }) ∧
      (a.version = some version → index ∉ a.held → a.parts = count →
        s₁ = added (held s₀ { a with held := a.held ++ [index] }))) ∧
  (∀ (raw : RawTitle) (s : State),
    let old := s.billing.catalogue
    let x : Title := ⟨raw.title, min 99999 raw.price, min 5 raw.rating, min 48 raw.window⟩
    if raw.title = 0 ∨ 64 ≤ old.length ∧ s.titleRecord raw.title = none then s.addTitle raw = s
    else ∃ l,
      let changed : State := { s with billing := { s.billing with catalogue := l } }
      LapsedAndReran (changed.rerated s) allScreens changed (s.addTitle raw) ∧
      (∀ y, y ∈ l ↔ y = x ∨ y ∈ old ∧ y.title ≠ raw.title) ∧
      (old.Pairwise (fun y z => y.title < z.title) → l.Pairwise fun y z => y.title < z.title))

/-- R120, R122, R123, R124, R132, R133: QUOTE and BUY, begun, are judged by the same ten checks in order. Past
them QUOTE is replied OK with the charge and the outcome a BUY would have; BUY is refused with that outcome or
begins its write, with the pending charge set and a journal slot promised. -/
def Obligations.QuoteAndBuyAreJudgedByTheSameChecks : Prop :=
  ∀ c ∈ ([(Instr.quote, 0x11), (Instr.buy, 0x12)] : List ((Nat → Instr) × Nat)),
    ∀ (t : Nat) (s : State) (r : Request), Begins c.2 .guest s r →
      let screen := field 0 1 r.body
      let title := field 1 2 r.body
      let refused (st : Status) : Prop := exec (c.1 t) s = .next ((s.atInstant t).reply st [])
      ((screen = 0 ∨ 4 < screen ∨ title = 0) → refused .badArgument) ∧
      (∀ o : Screen, screen = o.val + 1 → title ≠ 0 →
        if s.cur.room.state ≠ .occupied then refused .notOccupied
        else match s.time.property, (s.output o).route.bind s.service, s.titleRecord title with
          | none, _, _ => refused .timeUnset
          | some _, none, _ => refused .notFilm
          | some time, some v, x =>
            if v.kind ≠ .film then refused .notFilm
            else if s.titleOf v.number ≠ some title then refused .titleChanged
            else match x with
              | none => refused .noTitle
              | some x =>
                if ∃ p ∈ s.cur.purchases, p.title = title then refused .alreadyOwned
                else if s.locked v.number o = true then refused .locked
                else if s.cur.lock.barred = true ∧ s.effectiveRating v.number = some 5 then refused .barred
                else
                  let rates := s.cur.rates
                  let net := if rates.bundle = 0 ∨ s.cur.room.count < rates.bundle then x.price
                    else (x.price * (100 - rates.discount) + 50) / 100
                  let tax := (net * rates.tax + 5000) / 10000
                  let total := net + tax
                  let ends := time.sec + (if x.window = 0 then s.cur.policy.window else x.window) * 3600
                  let expires : PTime := if 65535 < time.day + ends / 86400 then ⟨65535, 86399⟩
                    else ⟨time.day + ends / 86400, ends % 86400⟩
                  let committed := s.cur.room.spend + s.room.pendingCharge + accruedTotal s.cur.meter
                  let outcome : Status := if s.cur.room.limit < committed + total then .limit
                    else if 0 < total ∧ s.freeSlots = 0 then .journalFull
                    else if 16 ≤ s.cur.purchases.length then .tableFull
                    else .ok
                  let p : Purchase :=
                    ⟨title, s.cur.room.folio.getD 0, time, expires, net, tax, total, none, 0⟩
                  if c.2 = 0x11 then
                    exec (.quote t) s = .next ((s.atInstant t).reply .ok
                      (leBytes 2 title ++ leBytes 4 net ++ leBytes 4 tax ++ leBytes 4 total ++
                        timeField expires ++ [byte outcome.code]))
                  else if outcome ≠ .ok then refused outcome
                  else exec (.buy t) s = .next (({ s.atInstant t with
                    room := { s.room with pendingCharge := total }
                    journal := { s.journal with pendingRecord := if 0 < total then 1 else 0 }
                    port := { s.port with executing := true } } : State).fallDue (.buy p)))

/-- R125, R126: CANCEL, begun, is judged by its checks in order, and begins its write, which promises a journal
slot where the purchase has a charge. -/
def Obligations.CancelIsJudgedByItsChecks : Prop :=
  ∀ (t : Nat) (s : State) (r : Request), Begins 0x13 .guest s r →
    let title := field 0 2 r.body
    let refused (st : Status) : Prop := exec (.cancel t) s = .next ((s.atInstant t).reply st [])
    (title = 0 → refused .badArgument) ∧
    (title ≠ 0 → s.purchaseOf title = none → refused .notOwned) ∧
    (∀ p, title ≠ 0 → s.purchaseOf title = some p →
      let grace := s.cur.policy.grace * 60
      (s.time.property = none → refused .cancelLate) ∧
      (∀ time, s.time.property = some time →
        if grace ≤ (time.day * 86400 + time.sec) - (p.boughtAt.day * 86400 + p.boughtAt.sec) ∨
            grace ≤ p.play then refused .cancelLate
        else if 0 < p.total ∧ s.freeSlots = 0 then refused .journalFull
        else exec (.cancel t) s = .next (({ s.atInstant t with
          journal := { s.journal with pendingRecord := if 0 < p.total then 1 else 0 }
          port := { s.port with executing := true } } : State).fallDue (.cancel p time))))

/-- R124, R126, R127, R134, R147, R149: at its write's completion a BUY adds the purchase, and a CANCEL
removes it; where the total is above 0, S and the purchase count move and the PURCHASE or CREDIT record is
appended under the next number, with CHARGE raised; the request is replied OK and every verdict is run. R149: an
occupancy that has risen to the high mark or above while the flag is armed raises JOURNAL_HIGH and clears the flag.
The model's choices here: logs 20, 53 and 72, and logs 24 and 70 (in the store a new purchase takes the place of an
expired one of its title, and stands beside one of another title). -/
def Obligations.SalesTakeEffectAtTheirWritesCompletion : Prop :=
  (∀ s : State, s.occupancyRose =
    if s.journal.armed = true ∧ s.cur.settings.highMark ≤ s.cur.records.length + s.cur.reserved then
      { s.raise .journalHigh with journal := { s.journal with armed := false } }
    else s) ∧
  ∀ (t : Nat) (s : State) (p : Purchase) (rest : List TurnWrite), s.power ≠ .off →
    let number := if 0 < p.total then some s.cur.nextNumber else none
    let recorded (c : ChargeRecord) (r : Retained) : Retained :=
      if 0 < p.total then { r with
        records := r.records ++ [{ c with number := r.nextNumber }], nextNumber := r.nextNumber + 1 }
      else r
    let without (r : Retained) : List Purchase := r.purchases.filter fun q => q.title != p.title
    let done (f : Retained → Retained) : State :=
      let s₀ : State :=
        { s.atInstant t with
          cur := f s.cur
          store := f s.store
          turns := rest
          room := { s.room with pendingCharge := 0 }
          journal := { s.journal with pendingRecord := 0 } }
      (if 0 < p.total then (s₀.raise .charge).occupancyRose else s₀).turnsAdvance
    (takeBegun TurnWrite.isBuy false false s.turns = some (.buy p, rest) →
      let sold (r : Retained) : Retained :=
        { recorded ⟨0, .purchase, p.folio, some p.title, none, p.net, p.tax, p.total, p.boughtAt, none,
            none, none, 0⟩ r with
          room := if 0 < p.total then
              { r.room with spend := r.room.spend + p.total, count := min 16 (r.room.count + 1) }
            else r.room
          purchases := insertPurchase { p with number := number } (without r) }
      ∃ s₁, exec (.buyWriteComplete t) s = .next s₁ ∧
        Reran allScreens ((done sold).reply .ok
          (leBytes 2 p.title ++ leBytes 4 p.net ++ leBytes 4 p.tax ++ leBytes 4 p.total ++
            leBytes 4 (number.getD 0) ++ timeField p.expiresAt)) s₁) ∧
    (∀ stamp, takeBegun TurnWrite.isCancel false false s.turns = some (.cancel p stamp, rest) →
      let cancelled (r : Retained) : Retained :=
        { recorded ⟨0, .credit, p.folio, some p.title, none, p.net, p.tax, p.total, stamp, p.number,
            none, none, 0⟩ r with
          room := if 0 < p.total then
              { r.room with spend := r.room.spend - p.total, count := r.room.count - 1 }
            else r.room
          purchases := without r }
      ∃ s₁, exec (.cancelWriteComplete t) s = .next s₁ ∧
        Reran allScreens ((done cancelled).reply .ok
          (leBytes 4 (number.getD 0) ++ leBytes 4 p.total)) s₁)

/-- R88, R120, R121, R128, R129, R137, R138, R172, R173: a tick, once due, always has its effect. Property time
moves on and may reach a day boundary; the purchases it expires are found; outputs showing PLAYING gain a play
second; in an occupied room purchases and previews of the titles shown gain a second, a preview of a title with no
record begins one, in the place of the oldest record not being counted where 32 are held, the titles brought to the
allowance are reported, and a changed count begins a viewing write, or owes one while one is in flight; sessions
shown gain a viewed second, which begins or owes a meter write, and blocks due are left to be judged. All else is
unchanged. Log 4: where several previews are begun at one tick their order is free. The model's choices here: logs
11, 18 (a service is shown that the shown state was decided for), 30 and 60 (a session whose service has no METERED
record keeps its chargeable seconds). -/
def Obligations.TickCountsWhatIsShown : Prop :=
  ∀ (t : Nat) (s : State), s.power ≠ .off → ∃ s₁, exec (.tick t) s = .next s₁ ∧
    if max s.time.now t < s.time.nextTick then s₁ = s.atInstant t
    else
      let up (n : Nat) : Nat := min (n + 1) 4294967295
      let on (p : PTime) : PTime :=
        if p.sec < 86399 then ⟨p.day, p.sec + 1⟩ else if p.day < 65535 then ⟨p.day + 1, 0⟩ else p
      let shows (b : Basis) (title : Nat) : Prop := ∃ o : Screen, (s.output o).shown = .playing b ∧
        (s.output o).route.bind s.titleOf = some title
      let metered (n : Nat) : Prop :=
        ∃ o : Screen, (s.output o).shown = .playing .metered ∧ (s.output o).shownService = some n
      let occupied : Prop := s.cur.room.state = .occupied ∧ s.room.checkOut = none
      let expired : List Purchase := match s.time.property with
        | none => []
        | some now => s.cur.purchases.filter fun p =>
            decide (p.expiresAt.seconds ≤ (on now).seconds) && !s.cancelling p.title &&
              !(s.billing.expired.any fun q => q.same p)
      let allowance := s.cur.policy.preview
      let purchases := s.cur.purchases.map fun p =>
        if occupied ∧ shows .purchase p.title then { p with play := up p.play } else p
      let held := s.cur.previews.map fun p =>
        if shows .preview p.title ∧ p.used < allowance then { p with used := p.used + 1 } else p
      let begun (l : List Preview) (title : Nat) : List Preview :=
        (if 32 ≤ l.length then l.eraseP fun p => !decide (shows .preview p.title) else l) ++
          [⟨title, min 1 allowance⟩]
      let session (x : Session) : Session := match x.closing, s.meterTerms x.service with
        | none, some m =>
          let viewed := if metered x.service then up x.viewed else x.viewed
          { x with viewed := viewed, chargeable := viewed - m.free }
        | _, _ => x
      let meter := s.cur.meter.map session
      let blocks : List Accrual := meter.filterMap fun x => match x.closing, s.meterTerms x.service with
        | none, some m => if x.blocks * 60 * m.minutes < x.chargeable then some ⟨x.service, m⟩ else none
        | _, _ => none
      ∃ titles : List Nat, titles.Nodup ∧
        (∀ title, title ∈ titles ↔ occupied ∧ shows .preview title ∧ ∀ p ∈ s.cur.previews, p.title ≠ title) ∧
        let previews := if occupied then titles.foldl begun held else s.cur.previews
        let reached := if occupied then previews.filter fun p =>
            p.used == allowance && !(s.cur.previews.contains p) else []
        let counted : Prop := purchases ≠ s.cur.purchases ∨ previews ≠ s.cur.previews
        let told : State :=
          { s.atInstant t with
            time := { s.time with
              now := max s.time.now t, nextTick := s.time.nextTick + 1000, property := s.time.property.map on
              boundaryDue := s.time.boundaryDue ||
                (s.time.property.any fun p => (on p).sec == s.cur.policy.dayStart * 3600) }
            router := { s.router with outputs := s.router.outputs.map fun x =>
              if x.shown.isPlaying then { x with playSeconds := up x.playSeconds } else x }
            choices := if 2 ≤ titles.length then s.choices + 1 else s.choices
            cur := { s.cur with purchases := purchases, previews := previews, meter := meter }
            billing := { s.billing with
              expired := s.billing.expired ++ expired
              allowanceReached := s.billing.allowanceReached ++ reached.map (·.title)
              viewingWrite := s.billing.viewingWrite || decide counted
              viewingOwed := s.billing.viewingOwed || (s.billing.viewingWrite && decide counted)
              accruals :=
                (s.billing.accruals.filter fun a => !(blocks.any fun d => d.service == a.service)) ++ blocks } }
        s₁ = if ∃ x ∈ s.cur.meter, x.closing = none ∧ s.meterTerms x.service ≠ none ∧ metered x.service then
            told.meterChanged
          else told

/-- R120, R121, R129: an expired purchase leaves the table in use at once, its removal is written, and every
verdict is run; the write's completion takes it from the store. A viewing write makes the counts durable as
they stand at its completion. A preview that reached the allowance runs every verdict. The model's choices
here: logs 22, 24 and 62 (an owed viewing write begins at the completion of the one before). -/
def Obligations.ExpiriesAndViewingCountsReachTheStore : Prop :=
  ∀ (t : Nat) (s : State), s.power ≠ .off →
    (∀ title p, s.billing.expired.find? (fun q => q.title == title) = some p → ∃ s₁,
      exec (.purchaseExpiry t title) s = .next s₁ ∧
      let taken : Billing := { s.billing with expired := s.billing.expired.erase p }
      (s.cancelling title = true → s₁ = s.atInstant t) ∧
      (s.cancelling title = false → (∀ q ∈ s.cur.purchases, q.same p = false) →
        s₁ = { s.atInstant t with billing := taken }) ∧
      (∀ q, s.cancelling title = false → s.cur.purchases.find? (·.same p) = some q →
        Reran allScreens
          { s.atInstant t with
            cur := { s.cur with purchases := s.cur.purchases.filter fun x => x.title != q.title }
            billing := { taken with expiryWrites := s.billing.expiryWrites ++ [q] } } s₁)) ∧
    (∀ title p, s.billing.expiryWrites.find? (fun q => q.title == title) = some p →
      exec (.expiryWriteComplete t title) s = .next
        { s.atInstant t with
          store := { s.store with purchases := s.store.purchases.filter fun q =>
            !(q.same p) || s.cur.purchases.any (·.same q) }
          billing := { s.billing with expiryWrites := s.billing.expiryWrites.erase p } }) ∧
    (s.billing.viewingWrite = true →
      exec (.viewingWriteComplete t) s = .next
        { s.atInstant t with
          store := { s.store with
            purchases := s.store.purchases.map fun p =>
              match s.cur.purchases.find? (·.same p) with
              | some q => { p with play := q.play }
              | none => p
            previews := s.cur.previews }
          billing := { s.billing with viewingWrite := s.billing.viewingOwed, viewingOwed := false } }) ∧
    (∀ title, title ∈ s.billing.allowanceReached → ∃ s₁,
      exec (.previewAllowanceReached t title) s = .next s₁ ∧
      Reran allScreens { s.atInstant t with billing := { s.billing with
        allowanceReached := s.billing.allowanceReached.erase title } } s₁)

/-! ## Chapter 9: charge arithmetic and metered viewing -/

/-- R132: the charge of a purchase, from the price, the purchase count and the rates in use; its bounds; the
figures the purchase and its PURCHASE record carry; that a total of 0 writes no record and leaves n; and that
QUOTE, and check 11 of BUY, past the checks before it, compute it on the state as it stands. -/
def Obligations.PurchaseChargeFollowsPriceCountAndRates : Prop :=
  (∀ (s : State) (x : Title) (time : PTime),
    let net := if s.cur.rates.bundle = 0 ∨ s.cur.room.count < s.cur.rates.bundle then x.price
      else (x.price * (100 - s.cur.rates.discount) + 50) / 100
    let tax := (net * s.cur.rates.tax + 5000) / 10000
    let p := s.sale x time
    p.net = net ∧ p.tax = tax ∧ p.total = net + tax ∧
      (purchaseRecord p).net = net ∧ (purchaseRecord p).tax = tax ∧ (purchaseRecord p).total = net + tax ∧
      (x.price ≤ 99999 → s.cur.rates.tax ≤ 2500 → p.total ≤ 124999) ∧
      (net = 0 → p.total = 0) ∧ (x.price = 0 → p.total = 0) ∧
      (s.cur.rates.discount = 0 → p.net = x.price)) ∧
  (∀ (s : State) (p : Purchase), p.total = 0 →
    (s.sell p).cur.records = s.cur.records ∧ (s.sell p).store.records = s.store.records ∧
      (s.sell p).cur.room = s.cur.room ∧ (s.sell p).store.room = s.store.room) ∧
  (∀ (t : Nat) (s : State) (r : Request) (x : Title) (time : PTime),
    s.checkSale (field 0 1 r.body) (field 1 2 r.body) = .passed x time →
    let p := s.sale x time
    (Begins 0x11 .guest s r → ∃ before after, exec (.quote t) s = .next ((s.atInstant t).reply .ok
      (before ++ leBytes 4 p.net ++ leBytes 4 p.tax ++ leBytes 4 p.total ++ after))) ∧
    (Begins 0x12 .guest s r →
      let committed := s.cur.room.spend + s.room.pendingCharge + accruedTotal s.cur.meter
      (s.cur.room.limit < committed + p.total →
        exec (.buy t) s = .next ((s.atInstant t).reply .limit [])) ∧
      (committed + p.total ≤ s.cur.room.limit → s.saleOutcome x = .ok → ∃ s₁, exec (.buy t) s = .next s₁ ∧
        s₁.room.pendingCharge = p.total ∧ .buy p ∈ s₁.turns)))

/-- R134, R137, R147: the writes of the Billing Unit are made one at a time in the order they fall due, and so
are those that change the journal: the write in flight is the first of its owner; a meter write takes its
image of the meter table when it begins, with no write of the unit before it. The model's choices here: log 22. -/
def Obligations.DurableWritesTakeTheirTurns : Prop :=
  let begun (before : List TurnWrite) (w : TurnWrite) : Prop :=
    (w.isBilling = true → ∀ v ∈ before, v.isBilling = false) ∧
      (w.isJournal = true → ∀ v ∈ before, v.isJournal = false)
  (∀ (p : TurnWrite → Bool) (writes rest : List TurnWrite) (w : TurnWrite),
    takeBegun p false false writes = some (w, rest) ↔
      ∃ before after, writes = before ++ w :: after ∧ rest = before ++ after ∧ p w = true ∧ begun before w ∧
        ∀ pre v post, before = pre ++ v :: post → p v = true → ¬ begun pre v) ∧
  (∀ (s : State), ∃ writes, s.turnsAdvance = { s with turns := writes } ∧ writes.length = s.turns.length ∧
    ∀ before w after, s.turns = before ++ w :: after → writes[before.length]? = some
      (if w = .meter none ∧ ∀ v ∈ before, v.isBilling = false then
        .meter (some ⟨s.cur.meter, s.cur.daySpend, s.cur.reserved⟩)
      else w)) ∧
  (∀ (s : State) (w : TurnWrite),
    s.fallDue w = ({ s with turns := s.turns ++ [w] } : State).turnsAdvance) ∧
  (∀ (s : State), s.meterChanged =
    if ∃ w ∈ s.turns, w.isMeter = true then { s with billing := { s.billing with meterOwed := true } }
    else s.fallDue (.meter none))

/-- R133, R138, R139: the accrual a tick left is judged: a due block is tested against L with its net and the
tax of the grown session net, and accrues with day spend, or its refusal begins the close with cause LIMIT. -/
def Obligations.BlockAccrualIsTestedAgainstTheLimit : Prop :=
  ∀ (t n : Nat) (s : State) (a : Accrual) (x : Session), s.power ≠ .off →
    s.billing.accruals.find? (fun a => a.service == n) = some a → s.session n = some x →
    ∃ s₁, exec (.blockAccrual t n) s = .next s₁ ∧
      let due (blocks : Nat) : Prop := blocks * 60 * a.terms.minutes < x.chargeable
      let taken (s : State) : State :=
        { s with billing := { s.billing with
          accruals := s.billing.accruals.filter fun a => a.service != n } }
      let net := if a.terms.cap = 0 then a.terms.price
        else min a.terms.price (a.terms.cap - s.daySpendOf n)
      let grown (y : Session) : Session := if y.service = n then { y with net := y.net + net } else y
      let open' := ((s.cur.meter.map grown).map fun y => y.net + (y.net * y.rate + 5000) / 10000).sum
      let blocks := min (x.blocks + 1) 4294967295
      let counted (y : Session) : Session :=
        if y.service = n then { grown y with blocks := min (y.blocks + 1) 4294967295 } else y
      let accrued : State :=
        (({ s.atInstant t with cur := { s.cur with meter := s.cur.meter.map counted } } : State).addDaySpend
          n net).meterChanged
      ((x.closing ≠ none ∨ ¬ due x.blocks) → s₁ = taken (s.atInstant t)) ∧
      (x.closing = none → due x.blocks →
        if s.cur.room.spend + s.room.pendingCharge + open' ≤ s.cur.room.limit then
          (due blocks → s₁ = accrued) ∧ (¬ due blocks → s₁ = taken accrued)
        else Reran (s.routedTo n) ((s.atInstant t).beginClose n .limit) s₁)

/-- R137, R141, R148, R149: a close begins once, with its cause, and falls due with its time stamp; at its
completion the session and its reservation leave the table, a session net above 0 is appended as a METERED
record that S takes, the outputs of R141 are run, and the start-up, suspension or check-out goes on: a start-up
with the close of the oldest session that is not closing (R142), a suspension and a check-out as
RoomFlagsChangeAtTheirWritesCompletion and CheckOutClosesSessionsThenClears say. A meter write makes its image
durable, and the next one begins where one is owed. The model's choices here: logs 22, 35, 36, 54, 68
and 72. -/
def Obligations.MeterClosesAndWritesTakeEffectAtCompletion : Prop :=
  (∀ (n : Nat) (cause : CloseCause) (s : State) (x : Session), s.session n = some x →
    (x.closing ≠ none → s.beginClose n cause = s) ∧
    (x.closing = none → s.beginClose n cause =
      ({ s with
        cur := { s.cur with meter := s.cur.meter.map fun y =>
          if y.service = n then { y with closing := y.closing.or (some cause) } else y }
        billing := { s.billing with
          accruals := s.billing.accruals.filter fun a => a.service != n } } : State).fallDue
        (.close n (s.time.property.getD x.openedAt) (decide (0 < x.net))))) ∧
  (∀ (s : State),
    ((∀ x ∈ s.cur.meter, x.closing ≠ none) → s.closeFound = s) ∧
    (∀ before x after, s.cur.meter = before ++ x :: after → (∀ y ∈ before, y.closing ≠ none) → x.closing = none →
      s.closeFound = s.beginClose x.service .startUp)) ∧
  (∀ (t n : Nat) (s : State) (x : Session) (stamp : PTime) (charged : Bool) (rest : List TurnWrite),
    s.power ≠ .off → s.session n = some x →
    takeBegun (TurnWrite.closes n) false false s.turns = some (.close n stamp charged, rest) →
    let tax := (x.net * x.rate + 5000) / 10000
    let gone (r : Retained) : Retained :=
      if ∃ y ∈ r.meter, y.service = n then
        { r with meter := r.meter.filter fun y => y.service != n, reserved := r.reserved - 1 }
      else r
    let recorded (r : Retained) : Retained :=
      if charged then
        { r with
          room := { r.room with spend := r.room.spend + (x.net + tax) }
          records := r.records ++ [⟨r.nextNumber, .metered, x.folio, none, some n, x.net, tax, x.net + tax,
            stamp, none, some x.viewed, some x.blocks, 0⟩]
          nextNumber := r.nextNumber + 1 }
      else r
    let s₀ : State :=
      { s.atInstant t with
        cur := recorded (gone s.cur)
        store := recorded (gone s.store)
        turns := rest }
    let s₁ := (if charged then s₀.raise .charge else s₀.occupancyFell).turnsAdvance
    ∃ s₂, Reran (s₁.routedOrSlated n) s₁ s₂ ∧
      let s₃ : State := { s₂ with billing := { s₂.billing with
        suspendCloses := s₂.billing.suspendCloses.filter fun m => m != n } }
      exec (.meterCloseComplete t n) s = .next
        (if s.power = .starting then s₃.closeFound else s₃.advanceSuspend.advanceCheckOut)) ∧
  (∀ (t : Nat) (s : State) (image : MeterImage) (rest : List TurnWrite), s.power ≠ .off →
    takeBegun TurnWrite.isMeter false false s.turns = some (.meter (some image), rest) →
    let written : State :=
      { s.atInstant t with
        store := { s.store with
          meter := image.meter, daySpend := image.daySpend, reserved := image.reserved }
        turns := rest }
    exec (.meterWriteComplete t) s = .next
      (if s.billing.meterOwed then
        ({ written with billing := { s.billing with meterOwed := false } } : State).fallDue (.meter none)
      else written.turnsAdvance))

/-- R140, R143, R173: the rejoin expiry of an IDLE session begins its close; a day boundary empties the
day-spend table; a charge of the day adds to its service's entry, or makes one, in the place of the oldest
entry whose service is metered no more where the table is full. Log 37: with no such entry the oldest goes.
The model's choices here: log 38, and log 35 (the outputs routed to the service are run as its close begins). -/
def Obligations.RejoinExpiriesAndDaySpendAreKept : Prop :=
  (∀ (t n : Nat) (s : State) (x : Session), s.power ≠ .off → s.session n = some x →
    ∃ s₁, exec (.rejoinExpiry t n) s = .next s₁ ∧
      if x.idle = true ∧ x.closing = none ∧ (∃ d, x.rejoin = some d ∧ d ≤ max s.time.now t) then
        Reran (s.routedTo n) ((s.atInstant t).beginClose n .expiry) s₁
      else s₁ = s.atInstant t) ∧
  (∀ (t : Nat) (s : State), s.power ≠ .off →
    let s₀ : State := { s.atInstant t with
      time := { s.time with now := max s.time.now t, boundaryDue := false } }
    exec (.dayBoundary t) s = .next (
      if s.time.boundaryDue = false then s.atInstant t
      else if s.cur.daySpend = [] then s₀
      else ({ s₀ with cur := { s.cur with daySpend := [] } } : State).meterChanged)) ∧
  (∀ (n units : Nat) (s : State),
    let spent : List DaySpend → State := fun l => { s with cur := { s.cur with daySpend := l } }
    let own (d : DaySpend) : Prop := d.service = n
    let stale (d : DaySpend) : Prop := s.meterTerms d.service = none
    let idle (d : DaySpend) : Prop := stale d ∧ s.session d.service = none
    (units = 0 → s.addDaySpend n units = s) ∧
    (0 < units → (∃ d ∈ s.cur.daySpend, own d) → s.addDaySpend n units =
      spent (s.cur.daySpend.map fun d => if d.service = n then { d with units := d.units + units } else d)) ∧
    (0 < units → (∀ d ∈ s.cur.daySpend, ¬ own d) →
      (s.cur.daySpend.length < 8 → s.addDaySpend n units = spent (s.cur.daySpend ++ [⟨n, units⟩])) ∧
      (8 ≤ s.cur.daySpend.length → ∀ before d after, s.cur.daySpend = before ++ d :: after →
        (idle d ∧ (∀ y ∈ before, ¬ idle y) ∨
          (∀ y ∈ s.cur.daySpend, ¬ idle y) ∧ stale d ∧ (∀ y ∈ before, ¬ stale y) ∨
          (∀ y ∈ s.cur.daySpend, ¬ stale y) ∧ before = []) →
        s.addDaySpend n units =
          spent ((s.cur.daySpend.filter fun y => y.service != d.service) ++ [⟨n, units⟩]))))

/-! ## Chapter 10: the charge journal -/

/-- R150 to R154: JOURNAL_READ, and in PUSH mode a pushed frame while the transmitter is free, present the
record at the cursor: its count rises, the cursor moves past it, and a presentation write begins or is owed;
JOURNAL_REWIND takes the cursor to 1; JOURNAL_MODE sets the mode. The model's choices here: log 22. -/
def Obligations.RecordAtTheCursorIsPresented : Prop :=
  let atCursor (s : State) : Option ChargeRecord :=
    s.cur.records.find? fun r => decide (s.journal.cursor ≤ r.number)
  let after (r : ChargeRecord) : ChargeRecord := { r with presented := min (r.presented + 1) 255 }
  let presented (r : ChargeRecord) (s : State) : State :=
    let s₀ : State := { s with
      cur := { s.cur with records := s.cur.records.map fun x => if x.number = r.number then after x else x }
      journal := { s.journal with cursor := r.number + 1 } }
    if ∃ w ∈ s.turns, w.isPresentation = true then
      { s₀ with journal := { s₀.journal with presentationOwed := true } }
    else s₀.fallDue (.presentation (s₀.cur.records.map fun x => (x.number, x.presented)))
  (∀ (t : Nat) (s : State) (q : Request), Begins 0x08 .everyMode s q →
    exec (.journalRead t) s = .next (match atCursor s with
      | none => (s.atInstant t).reply .empty []
      | some r => (presented r (s.atInstant t)).reply .ok (recordField (after r) ++
          [byte (s.cur.records.filter fun x => decide (r.number < x.number)).length]))) ∧
  (∀ (t : Nat) (s : State) (q : Request), Begins 0x09 .everyMode s q →
    exec (.journalRewind t) s = .next
      (({ s.atInstant t with journal := { s.journal with cursor := 1 } } : State).reply .ok [])) ∧
  (∀ (t : Nat) (s : State) (q : Request), Begins 0x0A .everyMode s q →
    let mode := field 0 1 q.body
    exec (.journalMode t) s = .next (
      if 1 < mode then (s.atInstant t).reply .badArgument []
      else ({ s.atInstant t with journal := { s.journal with push := mode == 1 } } : State).reply .ok [])) ∧
  (∀ (t : Nat) (s : State), s.power ≠ .off →
    let free : Prop := s.port.opened = true ∧ s.port.lineBreak = false ∧ s.port.outbound = [] ∧
      s.port.transmitter = .idle
    ((s.journal.push = false ∨ atCursor s = none ∨ ¬ free) →
      exec (.chargePresented t) s = .next (s.atInstant t)) ∧
    (∀ r, s.journal.push = true → free → atCursor s = some r →
      exec (.chargePresented t) s = .next
        { presented r (s.atInstant t) with
          port := { s.port with transmitter := .push (frameBytes 0xE0 0 (recordField (after r))) } }))

/-- R12, R149, R154, R155, R156: RELEASE_CHARGES begins a release at once, or is kept at the greater number; a
release names the records from the oldest that are numbered at most N and presented; at its write's completion
they are gone, in use and durably, an occupancy that has fallen below the high mark arms the flag, the outputs slated
for money are run, and a settling folio left without a record ends with PROPERTY raised; a presentation write makes
its counts durable. The model's choices here: logs 16, 22, 55, 63 (an owed presentation write falls due at the
completion of the one before), 68 (the flag is armed before the outputs are run) and 72 (so is the next write begun). -/
def Obligations.ReleaseRemovesPresentedRecordsOnly : Prop :=
  (∀ s : State, s.occupancyFell =
    if s.cur.records.length + s.cur.reserved < s.cur.settings.highMark then
      { s with journal := { s.journal with armed := true } }
    else s) ∧
  (∀ (t : Nat) (s : State) (scope : Scope) (issue n : Nat), Awaits s scope issue (.releaseCharges n) →
    let s₀ := s.receiving scope issue (.releaseCharges n) t
    let free : Prop := (∀ w ∈ s.turns, w.isJournal = false) ∧ s.roomSettled = true
    exec (.releaseCharges t) s = .next ((
      if n = 0 then s₀
      else if free ∧ s.journal.kept = none then s₀.beginRelease n
      else { s₀ with journal := { s.journal with kept := some (max n (s.journal.kept.getD 0)) } }).judgeHanded
        s.decoder.handed)) ∧
  (∀ (t n : Nat) (s : State), s.power ≠ .off → s.journal.kept = some n →
    let free : Prop := (∀ w ∈ s.turns, w.isJournal = false) ∧ s.roomSettled = true
    exec (.keptReleaseBegin t) s = .next (
      if free then ({ s.atInstant t with journal := { s.journal with kept := none } } : State).beginRelease n
      else s.atInstant t)) ∧
  (∀ (n : Nat) (s : State) (gone kept : List ChargeRecord), s.cur.records = gone ++ kept →
    (∀ r ∈ gone, r.number ≤ n ∧ 1 ≤ r.presented) →
    (∀ r, kept.head? = some r → n < r.number ∨ r.presented = 0) →
    s.beginRelease n = if gone = [] then s
      else s.fallDue (.release (gone.map fun r => r.number) (kept.map fun r => (r.number, r.presented))
        (decide (∃ f, s.cur.room.settling = some f ∧ ∀ r ∈ kept, r.folio ≠ f)))) ∧
  (∀ (t : Nat) (s : State) (numbers : List Nat) (cs : List Count) (ends : Bool) (rest : List TurnWrite),
    s.power ≠ .off → takeBegun TurnWrite.isRelease false false s.turns = some (.release numbers cs ends, rest) →
    let left (l : List ChargeRecord) : List ChargeRecord := l.filter fun r => !(numbers.contains r.number)
    let s₀ : State :=
      { s.atInstant t with
        cur := { s.cur with records := left s.cur.records }
        store := { s.store with records := withCounts cs (left s.store.records) }
        turns := rest }
    let s₁ := s₀.occupancyFell.turnsAdvance
    ∃ s₂, Reran s₁.moneySlated s₁ s₂ ∧ ∃ s₃, exec (.releaseWriteComplete t) s = .next s₃ ∧
      let settled : Prop := ∃ f, s.cur.room.settling = some f ∧ ∀ r ∈ left s.cur.records, r.folio ≠ f
      let vacated (r : RoomRecord) : RoomRecord :=
        { r with settling := none, state := if r.state = .settling then .vacant else r.state }
      let s₄ : State := { s₂ with
        cur := { s₂.cur with room := vacated s₂.cur.room }
        store := { s₂.store with room := vacated s₂.store.room } }
      (¬ settled → s₃ = s₂) ∧
      (settled → s.cur.room.state ≠ .settling → s₃ = s₄.raise .property) ∧
      (settled → s.cur.room.state = .settling → Reran allScreens (s₄.raise .property) s₃)) ∧
  (∀ (t : Nat) (s : State) (cs : List Count) (rest : List TurnWrite), s.power ≠ .off →
    takeBegun TurnWrite.isPresentation false false s.turns = some (.presentation cs, rest) →
    let written : State :=
      { s.atInstant t with
        store := { s.store with records := withCounts cs s.store.records }
        turns := rest }
    exec (.presentationWriteComplete t) s = .next
      (if s.journal.presentationOwed then
        ({ written with journal := { s.journal with presentationOwed := false } } : State).fallDue
          (.presentation (s.cur.records.map fun r => (r.number, r.presented)))
      else written.turnsAdvance))

/-! ## Chapter 11: set port and requests -/

/-- R159, R161, R180, R183: the characters of a frame, arriving on an open line while the receiver hunts, make
the request they carry: it joins the intake, or, at a count of 8, is turned away with INTAKE_FULL and LINK
raised. A frame whose check differs by as little as a bit is no request: it raises LINK and queues a FRAME_ERROR
reply of tag 0. In HUNT any character but the sync value is discarded. -/
def Obligations.FrameIsReceivedAsTheRequestItCarries : Prop :=
  ∀ (t : Nat) (s : State) (r : Request), s.power ≠ .off → s.port.opened = true → s.port.lineBreak = false →
    s.port.receiver = .hunt → r.body.length ≤ 248 →
    let s₀ : State := { s.atInstant t with port := { s.port with lastCharAt := max s.time.now t } }
    let covered := byte (r.body.length + 2) :: r.kind :: r.tag :: r.body
    let waiting := s.port.intake.length
    exec (.frameReceived t (frameBytes r.kind r.tag r.body)) s = .next (
      if waiting < 8 then { s₀ with port := { s₀.port with intake := s.port.intake ++ [r] } }
      else (s₀.raise .link).queueError (frameBytes (replyKind r.kind) r.tag [3, byte waiting])) ∧
    (∀ lo hi : Byte, [lo, hi] ≠ crcBytes covered →
      exec (.frameReceived t (frameSync :: (covered ++ [lo, hi]))) s =
        .next ((s₀.raise .link).queueError (frameBytes 0xFF 0 [2, byte waiting]))) ∧
    (∀ c, c ≠ frameSync → exec (.frameReceived t [c]) s = .next s₀)

/-- R159, R160: the sync value begins a frame; a bad length, or a gap of more than 20 ms in mid-frame,
discards it and raises LINK. A line break raises LINK, discards every request that has not begun and every
queued reply, and stops receiver and transmitter until it ends; a FULL_RESET whose reply it discards begins
start-up (R178). The model's choices here: log 25. -/
def Obligations.LineTroubleDiscardsFramesAndQueues : Prop :=
  ∀ (t : Nat) (s : State), s.power ≠ .off →
    let s₀ := s.atInstant t
    let now := max s.time.now t
    let receiving (r : Receiver) : State :=
      { s₀ with port := { s.port with receiver := r, lastCharAt := now } }
    let hunting : State := { s₀ with port := { s.port with receiver := .hunt } }
    (s.port.opened = true → s.port.lineBreak = false →
      (s.port.receiver = .hunt → exec (.frameBegins t) s = .next (receiving (.frame []))) ∧
      (s.port.receiver = .frame [] → now ≤ s.port.lastCharAt + 20 →
        ∀ length : Byte, (length.toNat < 2 ∨ 250 < length.toNat) →
          exec (.badLength t length) s = .next ((receiving .hunt).raise .link)) ∧
      ∀ boot : Boot,
        let gapped := if s.port.receiver = .hunt then s₀ else hunting.raise .link
        let raised := gapped.raise .link
        let broken : State := { raised with port := { raised.port with
          receiver := .hunt
          lineBreak := true
          intake := if s.port.executing then s.port.intake.take 1 else []
          guestWaits := false
          outbound := []
          transmitter := .idle } }
        exec (.lineBreak t boot) s = .next
          (if ∃ f ∈ s.port.outbound, f.resets = true then broken.fullReset boot else broken)) ∧
    (s.port.receiver ≠ .hunt → exec (.frameGapTimeout t) s = .next
      (if s.port.lastCharAt + 20 < now then hunting.raise .link else s₀)) ∧
    exec (.lineBreakEnd t) s = .next { s₀ with port := { s.port with
      lineBreak := false
      transmitter :=
        if s.port.transmitter = .idle ∧ s.port.outbound ≠ [] then .reply else s.port.transmitter } }

/-- R161, R162, R163, R178: a reply carries its request's kind and tag, the status and the intake count left,
takes the request out of the intake, and joins the outbound queue; an error reply joins it while fewer than 4
wait. A pushed frame begins only on an open port whose queue is empty and whose transmitter is idle, outside a line
break. The transmitter, free, begins the oldest reply; sent whole, that leaves the queue, and the reply to a
FULL_RESET begins start-up. The model's choices here: log 14. -/
def Obligations.RepliesAreQueuedAndSentInOrder : Prop :=
  let sending (p : Port) (queue : List OutFrame) : Port :=
    { p with
      outbound := queue
      transmitter :=
        if p.transmitter = .idle ∧ p.lineBreak = false ∧ queue ≠ [] then .reply else p.transmitter }
  (∀ (s : State) (st : Status) (fields : List Byte) (r : Request) (rest : List Request),
    s.port.intake = r :: rest →
    let bytes := frameBytes (replyKind r.kind) r.tag (byte st.code :: byte rest.length :: fields)
    let left : Port := { s.port with intake := rest, executing := false, guestWaits := false }
    s.reply st fields = { s with port := sending left (s.port.outbound ++ [⟨bytes, false, false⟩]) }) ∧
  (∀ (s : State) (bytes : List Byte), s.queueError bytes =
    if (s.port.outbound.filter fun f => f.error).length < 4 then
      { s with port := sending s.port (s.port.outbound ++ [⟨bytes, true, false⟩]) }
    else s) ∧
  (∀ (t : Nat) (boot : Boot) (s : State), s.power ≠ .off →
    let freed (queue : List OutFrame) : State :=
      { s.atInstant t with port := sending { s.port with transmitter := .idle } queue }
    (s.port.transmitter = .idle → exec (.frameTransmitted t boot) s = .next (s.atInstant t)) ∧
    (∀ bytes, s.port.transmitter = .push bytes →
      exec (.frameTransmitted t boot) s = .next (freed s.port.outbound)) ∧
    (∀ f fs, s.port.transmitter = .reply → s.port.outbound = f :: fs →
      (f.resets = false → exec (.frameTransmitted t boot) s = .next (freed fs)) ∧
      (f.resets = true → exec (.frameTransmitted t boot) s = .next
        (({ s.atInstant t with port := { s.port with outbound := fs, transmitter := .idle } } :
          State).fullReset boot)))) ∧
  (∀ (t : Nat) (s : State), ∃ s₁, exec (.chargePresented t) s = .next s₁ ∧
    (s₁.port = s.port ∨
      s.port.opened = true ∧ s.port.lineBreak = false ∧ s.port.outbound = [] ∧ s.port.transmitter = .idle ∧
      ∃ bytes, s₁.port = { s.port with transmitter := .push bytes }))

/-- R17, R18, R60, R162, R163: the access mode and the groups of requests each mode takes; a request begins
when the port is open, nothing executes, the outbound queue has room and no owner holds it back, and until
then its command has no effect; one of an unknown kind, of a group the mode refuses, or with a body of the
wrong length is replied so, with no other effect. The model's choices here: log 1, and log 67 (a PROVISION waits for
the held and the waiting messages). -/
def Obligations.RequestsBeginInTurnAndTheWrongAreRefused : Prop :=
  (∀ s : State,
    (s.mode = .lockdown ↔ s.cur.room.lockdown = true) ∧
    (s.mode = .maintenance ↔
      s.cur.room.lockdown = false ∧ (s.room.windowEnd ≠ none ∨ s.cur.room.roomId = 0)) ∧
    (s.mode = .normal ↔
      s.cur.room.lockdown = false ∧ s.room.windowEnd = none ∧ s.cur.room.roomId ≠ 0) ∧
    s.modeTakes .everyMode = true ∧
    (s.modeTakes .guest = true ↔ s.mode ≠ .lockdown) ∧
    (s.modeTakes .restart = true ↔ s.mode ≠ .lockdown) ∧
    (s.modeTakes .service = true ↔ s.mode = .maintenance) ∧
    (s.canBegin = true ↔ s.port.opened = true ∧ s.port.executing = false ∧ s.port.resetOwed = false ∧
      (s.port.outbound.filter fun f => !f.error).length < 8) ∧
    (∀ k : Byte, s.heldBack k = true ↔
      (0x11 ≤ k.toNat ∧ k.toNat ≤ 0x15 ∧
        (s.room.checkOut ≠ none ∨ s.port.guestWaits = true ∧ s.roomSettled = false)) ∨
      ((k = 0x14 ∨ k = 0x15) ∧ s.lockSettled = false) ∨
      (k = 0x18 ∧ ((∃ g ∈ s.keys, g.inFlight ≠ none) ∨ s.billing.tierWrite ≠ none ∨
        s.lockSettled = false ∨ s.roomSettled = false)))) ∧
  (∀ c ∈ ([(Instr.status, 0x01, .everyMode), (.screenStatus, 0x02, .everyMode),
      (.lineupRead, 0x03, .everyMode), (.catalogueRead, 0x04, .everyMode), (.readEvents, 0x05, .everyMode),
      (.clearEvents, 0x06, .everyMode), (.setEventMask, 0x07, .everyMode), (.journalRead, 0x08, .everyMode),
      (.journalRewind, 0x09, .everyMode), (.journalMode, 0x0A, .everyMode), (.settingsRead, 0x0B, .everyMode),
      (.tune, 0x0C, .everyMode), (.screenOff, 0x0D, .everyMode), (.routeHold, 0x0E, .everyMode),
      (.routeRelease, 0x0F, .everyMode), (.relock, 0x10, .everyMode), (.quote, 0x11, .guest),
      (.buy, 0x12, .guest), (.cancel, 0x13, .guest), (.unlock, 0x14, .guest), (.setPin, 0x15, .guest),
      (.restartStreams, 0x16, .restart), (.settingsWrite, 0x17, .service), (.provision, 0x18, .service),
      (.fullReset, 0x19, .service)] : List ((Nat → Instr) × Nat × Group)),
    ∀ (t : Nat) (s : State) (r : Request), s.power ≠ .off → s.port.intake.head? = some r →
      r.kind.toNat = c.2.1 →
      ((s.canBegin = false ∨ s.heldBack r.kind = true) → exec (c.1 t) s = .next (s.atInstant t)) ∧
      (s.canBegin = true → s.heldBack r.kind = false →
        (s.modeTakes c.2.2 = false → exec (c.1 t) s = .next ((s.atInstant t).reply .mode [])) ∧
        (s.modeTakes c.2.2 = true → r.body.length ≠ requestLength r.body c.2.1 →
          exec (c.1 t) s = .next ((s.atInstant t).reply .badArgument [])))) ∧
  (∀ (t : Nat) (s : State) (r : Request), s.power ≠ .off → s.port.intake.head? = some r →
    (r.kind = 0 ∨ 0x1A ≤ r.kind.toNat) →
    exec (.unknownRequest t) s = .next
      (if s.canBegin then (s.atInstant t).reply .unknownRequest [] else s.atInstant t))

/-- R167, R168, R169: a query is replied with the state as it stands, within the 248 bytes of a body,
and changes nothing but the queues; a STATUS of an unknown section is refused. LINEUP_READ and CATALOGUE_READ
list the records from the first at or above the number given, for as many as the reply can carry. R185: sections
BILLING and METER carry items of both their lists from the index given, and the item at that index of each that has
one, so that asking again reaches every item. The sections ROOM, KEYS, ENGINES, LOCK, JOURNAL and PORT and the reply
to SCREEN_STATUS carry, field by field, what R2, R65, R78, R112, R157, R98 and R35 list, and the items of the lists
are spelled out too. Log 7: the order and widths of the fields and the bits of the sets; log 64: the allowance
second in section BILLING;
log 65: a LINEUP_READ from a number above every record; log 66: the part count with no version; log 69: the number
of records held, as the list's length. The model's choices
here: logs 5, 27, 28, 29, 50 and 52. -/
def Obligations.QueriesReportTheStateAndChangeNothing : Prop :=
  let answers (t : Nat) (s : State) (o : Out) (fields : List Byte) : Prop :=
    o = .next ((s.atInstant t).reply .ok fields) ∧ fields.length ≤ 246
  let lists (assembly fields : List Byte) (total : Nat) (records : List (List Byte)) : Prop :=
    ∃ k, k ≤ records.length ∧
      fields = assembly ++ byte total :: byte k :: (records.take k).flatten ∧
      ∀ next, records[k]? = some next → 246 < fields.length + next.length
  let both (start : Nat) (head fields : List Byte) (xs ys : List (List Byte)) : Prop :=
    ∃ j k, j ≤ (xs.drop start).length ∧ k ≤ (ys.drop start).length ∧
      fields = head ++ (byte xs.length :: byte j :: ((xs.drop start).take j).flatten) ++
        (byte ys.length :: byte k :: ((ys.drop start).take k).flatten) ∧
      (start < xs.length → 1 ≤ j) ∧ (start < ys.length → 1 ≤ k) ∧
      ∀ next, (xs.drop start)[j]? = some next ∨ (ys.drop start)[k]? = some next →
        246 < fields.length + next.length
  let bit (b : Bool) : List Byte := [if b then 1 else 0]
  let time (p : PTime) : List Byte := leBytes 2 p.day ++ leBytes 4 p.sec
  let orZero (width : Nat) (n : Option Nat) : List Byte := leBytes width (n.getD 0)
  let orOnes (width : Nat) (n : Option Nat) : List Byte :=
    match n with
    | some n => leBytes width n
    | none => List.replicate width 0xFF
  (∀ (s : State),
    let r := s.cur.room
    let left (d : Option Nat) : List Byte := orOnes 4 (d.map fun d => (d - s.time.now) / 1000)
    let epoch (k : Option CellKey) : List Byte := orOnes 2 (k.map fun k => k.epoch.toNat)
    let unlock (u : Option Unlock) : List Byte :=
      left (u.map fun u => u.endAt) ++ bit (u.any fun u => u.deferred)
    let engine (e : Engine) : List Byte :=
      match e with
      | .off => 0 :: leBytes 2 0
      | .warming target _ => 1 :: orZero 2 target
      | .ready _ => 2 :: leBytes 2 0
      | .active n _ _ => 3 :: leBytes 2 n
    let shows (d : OutState) : List Byte :=
      match d with
      | .off => [0, 0]
      | .absent => [1, 0]
      | .tuning => [2, 0]
      | .playing b => [3, match b with | .free => 0 | .tier => 1 | .purchase => 2 | .preview => 3 | .metered => 4]
      | .slate why => [4, match why with
        | .lock => 0 | .unpaid => 1 | .limit => 2 | .journalFull => 3 | .suspended => 4 | .noKey => 5 | .wait => 6
        | .noSignal => 7 | .noService => 8 | .noInfo => 9]
    let screen (x : Output) : List Byte :=
      let p := if x.present then x.route.bind s.programme else none
      orZero 2 x.route ++
        (match x.staged with
          | none => leBytes 2 0
          | some .off => leBytes 2 0xFFFF
          | some (.service n) => leBytes 2 n) ++
        [(if x.present then 0 else 1 : Byte)] ++ shows x.decided ++ shows x.shown ++
        [(match x.engine with | none => 0 | some 0 => 1 | some 1 => 2 | some 2 => 3 : Byte)] ++
        leBytes 4 x.playSeconds ++ left x.noTitleAt ++ orZero 2 (p.bind fun p => p.title) ++
        orOnes 1 (p.bind fun p => p.rating) ++ leBytes 4 ((p.map fun p => p.discontinuities).getD 0) ++
        bit (p.any fun p => p.noSignal)
    s.roomSection = [(match r.state with | .vacant => 0 | .occupied => 1 | .settling => 2 : Byte)] ++
        orZero 4 r.folio ++ orZero 4 r.settling ++ leBytes 4 r.limit ++ leBytes 4 r.spend ++ leBytes 4 r.count ++ bit r.suspended ++
        bit r.lockdown ++ bit r.storeLost ++
        [(match s.mode with | .lockdown => 0 | .maintenance => 1 | .normal => 2 : Byte)] ++
        leBytes 4 ((s.room.windowEnd.getD 0 - s.time.now) / 1000) ++ leBytes 2 r.roomId ++ [byte r.group] ++
        bit r.storeLost ++
        (match s.time.property with
          | some p => time p
          | none => leBytes 2 Config.unsetDay.toNat ++ leBytes 4 0xFFFFFFFF) ++
        leBytes 4 s.decoder.drops ∧
    s.keysSection = bit s.cur.unitKey.isSome ++ ((List.range 16).map fun g =>
      let k := s.keyGroup g
      bit (s.accessKey g).isSome ++ bit k.inFlight.isSome ++ epoch k.even.current ++ epoch k.odd.current ++
        epoch k.even.pending ++ epoch k.odd.pending).flatten ∧
    (∀ start, lists
      ((match s.cur.settings.power with | .auto => 0 | .always => 1) :: (s.pool.engines.toList.map engine).flatten)
      (s.enginesSection start) s.pool.wait.length
      ((s.pool.wait.drop start).map fun w => leBytes 2 w.service)) ∧
    s.lockSection = [byte s.cur.lock.ceiling] ++ bit s.cur.lock.barred ++ bit s.cur.lock.pin.isSome ++
      leBytes 4 s.cur.lock.failures ++ leBytes 4 s.cur.lock.lockouts ++ bit s.cur.lock.running ++
      left s.lock.lockoutAt ++ unlock s.lock.room ++ (s.lock.screens.toList.map unlock).flatten ∧
    s.journalSection = leBytes 4 s.cur.records.length ++ leBytes 4 s.cur.reserved ++
      leBytes 4 s.journal.pendingRecord ++ leBytes 4 s.freeSlots ++ leBytes 4 s.cur.nextNumber ++
      orZero 4 (s.cur.records.head?.map fun c => c.number) ++
      orZero 4 (s.cur.records.getLast?.map fun c => c.number) ++
      orZero 4 ((s.cur.records.find? fun c => decide (s.journal.cursor ≤ c.number)).map fun c => c.number) ++
      bit s.journal.push ++ [byte s.cur.settings.highMark] ++ bit s.journal.armed ++
      bit s.journal.kept.isSome ++ orZero 4 s.journal.kept ∧
    s.portSection = leBytes 4 s.port.intake.length ++ leBytes 4 s.port.outbound.length ++
      [(match s.port.receiver with | .hunt => 0 | .frame _ => 1 | .check _ _ => 2 : Byte)] ++ bit s.port.fastBaud ∧
    s.screenStatus = (s.router.outputs.toList.map screen).flatten ++ bit s.router.hold.isSome ++
      orOnes 4 (s.router.hold.map fun d => d - s.time.now) ∧
    ∀ x : Session, s.sessionField x = leBytes 2 x.service ++ leBytes 4 x.folio ++ time x.openedAt ++
      leBytes 2 x.rate ++ leBytes 4 x.viewed ++ leBytes 4 x.chargeable ++ leBytes 4 x.blocks ++ leBytes 4 x.net ++
      bit x.idle ++ left x.rejoin ++ [(match x.closing with
        | none => 0xFF | some .expiry => 0 | some .limit => 1 | some .eviction => 2 | some .checkOut => 3
        | some .suspend => 4 | some .startUp => 5 : Byte)]) ∧
  (∀ (a : Assembly) (x : Service) (c : Title) (p : Purchase) (v : Preview),
    assemblyField a = orOnes 2 a.version ++ leBytes 4 a.parts ++
      leBytes 2 ((distinct a.held).map fun i => 2 ^ i).sum ∧
    titleField c = leBytes 2 c.title ++ leBytes 4 c.price ++ [byte c.rating, byte c.window] ∧
    purchaseField p = leBytes 2 p.title ++ time p.boughtAt ++ time p.expiresAt ++ leBytes 4 p.total ++
      orZero 4 p.number ++ leBytes 4 p.play ∧
    previewField v = leBytes 2 v.title ++ leBytes 4 v.used ∧
    let head := leBytes 2 x.number ++ leBytes 2 x.position
    let tail := bit x.keyGroup.isSome ++ orOnes 1 x.keyGroup ++ [byte x.rating]
    let unmetered : List Byte := 0 :: List.replicate 10 0xFF
    (x.kind = .free → serviceField x = head ++ [0, 0xFF] ++ tail ++ unmetered) ∧
    (∀ g, x.kind = .tier g → serviceField x = head ++ [1, byte g] ++ tail ++ unmetered) ∧
    (x.kind = .film → serviceField x = head ++ [2, 0xFF] ++ tail ++ unmetered) ∧
    (∀ m, x.kind = .metered m → serviceField x = head ++ [3, 0xFF] ++ tail ++ [byte m.minutes] ++
      leBytes 4 m.price ++ leBytes 4 m.cap ++ leBytes 2 m.free)) ∧
  (∀ (start : Nat) (s : State),
    both start (leBytes 4 s.cur.tiers.toNat ++ leBytes 2 s.cur.policy.preview) (s.billingSection start)
      (s.cur.purchases.map purchaseField) (s.cur.previews.map previewField) ∧
    both start
      (ratesField s.cur.rates ++ leBytes 4 s.cur.room.limit ++ leBytes 4 s.cur.room.spend ++
        leBytes 4 s.room.pendingCharge ++ leBytes 4 (accruedTotal s.cur.meter))
      (s.meterSection start) (s.cur.meter.map s.sessionField)
      (s.cur.daySpend.map fun d => leBytes 2 d.service ++ leBytes 4 d.units)) ∧
  ∀ (t : Nat) (s : State) (r : Request),
    let s₀ := s.atInstant t
    let first := field 0 2 r.body
    (Begins 0x01 .everyMode s r →
      let code := field 0 1 r.body
      let sections := [s₀.roomSection, s₀.keysSection, s₀.enginesSection (field 1 1 r.body), s₀.lockSection,
        s₀.billingSection (field 1 1 r.body), s₀.meterSection (field 1 1 r.body), s₀.journalSection,
        s₀.portSection]
      (∀ fields, sections[code]? = some fields → answers t s (exec (.status t) s) fields) ∧
      (8 ≤ code → exec (.status t) s = .next (s₀.reply .badArgument []))) ∧
    (Begins 0x02 .everyMode s r → answers t s (exec (.screenStatus t) s) s₀.screenStatus) ∧
    (Begins 0x03 .everyMode s r → ∃ fields, answers t s (exec (.lineupRead t) s) fields ∧
      lists (assemblyField s.decoder.lineup) fields s.billing.lineup.length
        ((s.billing.lineup.filter fun x => decide (first ≤ x.number)).map serviceField)) ∧
    (Begins 0x04 .everyMode s r → ∃ fields, answers t s (exec (.catalogueRead t) s) fields ∧
      lists (assemblyField s.decoder.catalogue) fields s.billing.catalogue.length
        ((s.billing.catalogue.filter fun x => decide (first ≤ x.title)).map titleField)) ∧
    (Begins 0x0B .everyMode s r → answers t s (exec (.settingsRead t) s)
      (settingsField s.cur.settings ++ [if s.port.fastBaud then 1 else 0, if s.port.maintenance then 1 else 0] ++
        policyField s.cur.policy ++ ratesField s.cur.rates ++ leBytes 2 s.cur.room.roomId ++
        [byte s.cur.room.group, if s.cur.unitKey.isSome then 1 else 0]))

/-- R164, R165, R166: a raise sets its class's pending flag and counts it, up to 255, and changes no other
class; the attention line is asserted exactly while a class is both pending and enabled. READ_EVENTS is
replied with the pending flags, the counts and the enable set, and changes nothing; CLEAR_EVENTS clears the
classes named and leaves the others; SET_EVENT_MASK makes its set the enable set; a set that marks anything
else than the eight classes is refused. The model's choices here: log 7. -/
def Obligations.EventsAreRaisedReadAndCleared : Prop :=
  (∀ (t : Nat) (s : State) (r : Request),
    let s₀ := s.atInstant t
    let e := s.port.events
    let named (c : EventClass) : Prop := (field 0 1 r.body).testBit c.bit = true
    let formed : Prop := field 1 1 r.body = 0
    let flagged (x : EventRecord) : Byte := if x.pending then 1 else 0
    (Begins 0x05 .everyMode s r →
      exec (.readEvents t) s = .next (s₀.reply .ok
        ([flagged e.charge, flagged e.journalHigh, flagged e.key, flagged e.lock, flagged e.route,
            flagged e.property, flagged e.link, flagged e.screen] ++
          leBytes 4 e.charge.count ++ leBytes 4 e.journalHigh.count ++ leBytes 4 e.key.count ++
          leBytes 4 e.lock.count ++ leBytes 4 e.route.count ++ leBytes 4 e.property.count ++
          leBytes 4 e.link.count ++ leBytes 4 e.screen.count ++ leBytes 2 s.port.enabled.toNat))) ∧
    (Begins 0x06 .everyMode s r →
      (¬ formed → exec (.clearEvents t) s = .next (s₀.reply .badArgument [])) ∧
      (formed → ∃ e' : Events,
        (∀ c, (named c → e'.get c = ⟨false, 0⟩) ∧ (¬ named c → e'.get c = e.get c)) ∧
        exec (.clearEvents t) s =
          .next (({ s₀ with port := { s.port with events := e' } } : State).reply .ok []))) ∧
    (Begins 0x07 .everyMode s r →
      (¬ formed → exec (.setEventMask t) s = .next (s₀.reply .badArgument [])) ∧
      (formed → exec (.setEventMask t) s = .next
        (({ s₀ with port := { s.port with enabled := BitVec.ofNat 8 (field 0 1 r.body) } } :
          State).reply .ok [])))) ∧
  ((∀ (s : State) (c d : EventClass),
    (s.raise c).port.events.get d =
      if d = c then ⟨true, min ((s.port.events.get c).count + 1) 255⟩ else s.port.events.get d) ∧
  (∀ (s : State) (c : EventClass),
    s.raise c = { s with port := { s.port with events := (s.raise c).port.events } }) ∧
  (∀ (s : State) (c : EventClass) (n : Nat), 0 < n →
    (s.raiseTimes c n).port.events.get c = ⟨true, min ((s.port.events.get c).count + n) 255⟩) ∧
  (∀ s : State, s.attention = true ↔
    ∃ c, (s.port.events.get c).pending = true ∧ s.port.enabled.getLsbD c.bit = true))

/-- R75, R149, R170: SETTINGS_WRITE is refused where its items are not one to four different known settings, or
name an unknown power policy; else each value named is clamped and the rest stay. Equal settings are replied at
once; others are written, and at the completion they are in use and durable, a changed power policy and a
changed high mark take effect, and the request is replied. -/
def Obligations.SettingsAreClampedAndTakeEffectTogether : Prop :=
  (∀ (items : List (Byte × BitVec 16)) (x : Settings), items.length < 256 →
    let codes := items.map fun i => i.1.toNat
    let body := byte items.length :: (items.map fun i => i.1 :: leBytes 2 i.2.toNat).flatten
    (settingsOfBody body x = none ↔ items.length = 0 ∨ 4 < items.length ∨ ¬ codes.Nodup ∨
      ∃ i ∈ items, 3 < i.1.toNat ∨ i.1 = 0 ∧ 1 < i.2.toNat) ∧
    ∀ y, settingsOfBody body x = some y →
      (0 ∉ codes → y.power = x.power) ∧ (1 ∉ codes → y.probe = x.probe) ∧
      (2 ∉ codes → y.frameRate = x.frameRate) ∧ (3 ∉ codes → y.highMark = x.highMark) ∧
      ∀ i ∈ items, let v := i.2.toNat
        (i.1 = 0 → y.power = if v = 0 then .auto else .always) ∧
        (i.1 = 1 → y.probe = if v ≤ 2 then 1 else 4) ∧
        (i.1 = 2 → y.frameRate = if v ≤ 55 then 50 else 60) ∧
        (i.1 = 3 → y.highMark = max 1 (min 63 v))) ∧
  (∀ (t : Nat) (s : State) (r : Request), Begins 0x17 .service s r →
    exec (.settingsWrite t) s = .next (match settingsOfBody r.body s.cur.settings with
      | none => (s.atInstant t).reply .badArgument []
      | some x =>
        if x = s.cur.settings then (s.atInstant t).reply .ok (settingsField x)
        else { s.atInstant t with port := { s.port with settings := some x, executing := true } })) ∧
  (∀ (t : Nat) (s : State) (x : Settings), s.power ≠ .off → s.port.settings = some x →
    let now := max s.time.now t
    let repolicied (e : Engine) : Engine :=
      match e, x.power with
      | .ready _, .auto => .ready (some (now + 10000))
      | .ready _, .always => .ready none
      | .off, .always => if s.cur.room.suspended then .off else .warming none (now + 40)
      | e, _ => e
    exec (.settingsWriteComplete t) s = .next (
      ({ s.atInstant t with
        cur := { s.cur with settings := x }
        store := { s.store with settings := x }
        pool := if x.power = s.cur.settings.power then s.pool
          else { s.pool with engines := s.pool.engines.map repolicied }
        journal := if x.highMark = s.cur.settings.highMark then s.journal
          else { s.journal with armed := decide (s.cur.records.length + s.cur.reserved < x.highMark) }
        port := { s.port with settings := none } } : State).reply .ok
          [if x.power = .auto then 0 else 1, byte x.probe, byte x.frameRate, byte x.highMark]))

/-- R18, R49, R60, R111, R118, R171: PROVISION is refused where the room id or group is out of range, and, naming
a new room id, where a record or a reserved slot remains; else it begins one write. At its completion a new room
id clears the room record, the PIN, the tiers, the keys and the reset serial, ends every unlock and runs every
verdict; the room id held keeps them; PROPERTY is raised for what changed, and the request is replied. -/
def Obligations.ProvisionNamesTheRoomAndClearsTheOldOne : Prop :=
  (∀ (t : Nat) (s : State) (r : Request), Begins 0x18 .service s r →
    let id := field 0 2 r.body
    let group := field 2 1 r.body
    let p : Provision :=
      ⟨id, group, BitVec.ofNat 64 (leNat (fieldBytes 3 8 r.body)), id != s.cur.room.roomId⟩
    exec (.provision t) s = .next (
      if id = 0 ∨ 9999 < id ∨ 63 < group then (s.atInstant t).reply .badArgument []
      else if id ≠ s.cur.room.roomId ∧ (s.cur.records ≠ [] ∨ s.cur.reserved ≠ 0) then
        (s.atInstant t).reply .journalPending []
      else { s.atInstant t with
        keys := if id = s.cur.room.roomId then s.keys else s.keys.map fun k => { k with next := none }
        port := { s.port with provision := some p, executing := true } })) ∧
  (∀ (t : Nat) (s : State) (p : Provision), s.power ≠ .off → s.port.provision = some p →
    let told (s : State) (changed : Bool) : State := if changed then s.raise .property else s
    (p.newRoom = true →
      let entered (x : Retained) : Retained :=
        { x with
          room :=
            { state := .vacant, folio := none, settling := none, limit := 0, spend := 0, count := 0,
              suspended := x.room.suspended, lockdown := x.room.lockdown, storeLost := false,
              roomId := p.roomId, group := p.group }
          lock := { x.lock with pin := none }
          unitKey := some p.unitKey
          accessKeys := List.replicate 16 none
          tiers := 0
          purchases := []
          previews := []
          resetSerial := none }
      ∃ s₁, Reran allScreens
          { s.atInstant t with
            cur := entered s.cur
            store := entered s.store
            keys := List.replicate 16 ⟨none, none, ⟨none, none⟩, ⟨none, none⟩⟩
            billing := { s.billing with tierNext := none }
            lock := { s.lock with room := none, screens := ⟨none, none, none, none⟩ }
            port := { s.port with provision := none } } s₁ ∧
        exec (.provisionWriteComplete t) s = .next ((s₁.raise .property).reply .ok []).lockFreed) ∧
    (p.newRoom = false →
      let kept (x : Retained) : Retained :=
        { x with unitKey := some p.unitKey, room := { x.room with group := p.group, storeLost := false } }
      exec (.provisionWriteComplete t) s = .next ((told
        { s.atInstant t with
          cur := kept s.cur
          store := kept s.store
          port := { s.port with provision := none } }
        (p.group != s.cur.room.group || s.cur.room.storeLost)).reply .ok []).lockFreed))

/-! ## Chapter 12: time, retained store and restart -/

/-- R172, R173, R174, R120: SET_TIME, taken, sets property time in either direction and finds the purchases it
expires, none where it moves time backward; from UNSET every verdict is run; a change of the day number, or a move
forward onto or over the day start within a day, is a day boundary. The model's choice here: log 11 (the purchases
expired and the day boundary are kept, and taken by commands of their own). -/
def Obligations.SetTimeMovesPropertyTime : Prop :=
  ∀ (t : Nat) (s : State) (scope : Scope) (issue : Nat) (new : PTime), Awaits s scope issue (.setTime new) →
    let s₀ := s.receiving scope issue (.setTime new) t
    let seconds (p : PTime) : Nat := p.day * 86400 + p.sec
    let cancelling (p : Purchase) : Prop := ∃ q stamp, TurnWrite.cancel q stamp ∈ s.turns ∧ q.title = p.title
    let h := s.cur.policy.dayStart * 3600
    let found (s₁ s₂ : State) : Prop := ∃ expired : List Purchase,
      s₂ = { s₁ with billing := { s₁.billing with expired := s.billing.expired ++ expired } } ∧
      expired.Sublist s.cur.purchases ∧
      ∀ p ∈ s.cur.purchases, p ∈ expired ↔
        seconds p.expiresAt ≤ seconds new ∧ ¬ cancelling p ∧
          ∀ q ∈ s.billing.expired, ¬ (q.title = p.title ∧ q.boughtAt = p.boughtAt ∧ q.number = p.number)
    let backward : Prop := ∃ old, s.time.property = some old ∧ seconds new < seconds old
    ∃ s₁ s₂, exec (.setTime t) s = .next (s₂.judgeHanded s.decoder.handed) ∧
      (backward → s₂ = s₁) ∧ (¬ backward → found s₁ s₂) ∧
      match s.time.property with
      | none => Reran allScreens { s₀ with time := { s₀.time with property := some new } } s₁
      | some old =>
        (∃ boundary : Bool, (boundary = true ↔ old.day ≠ new.day ∨ old.sec < h ∧ h ≤ new.sec) ∧
          s₁ = { s₀ with time := { s₀.time with
            property := some new, boundaryDue := s.time.boundaryDue || boundary } })

/-- R34, R57, R77, R97, R179: RESTART_STREAMS releases every engine and empties the wait list; then empties
every programme record, with the changes notified; then clears the content-seen and no-title state of every
output with a route and runs its verdict; and is replied OK. It begins no durable write of its own and keeps
all else. The model's choices here: log 39, log 56 (the emptied records' changed ratings judge deferred lapses) and
log 71 (the runs may open or evict meter sessions). -/
def Obligations.RestartStreamsRebuildsTheMediaPath : Prop :=
  ∀ (t : Nat) (s : State) (r : Request), Begins 0x16 .restart s r →
    let now := max s.time.now t
    let idle : Option Nat := if s.cur.settings.power = .auto then some (now + 10000) else none
    let released (e : Engine) : Engine :=
      match e with
      | .active _ _ _ => .ready idle
      | .warming _ d => .warming none d
      | .ready none => .ready idle
      | .ready (some d) => .ready (some d)
      | .off => .off
    let unheld (x : Output) : Output :=
      { x with engine := none, contentSeen := x.contentSeen && x.engine.isNone }
    let s₁ : State :=
      ({ s.atInstant t with
        pool := ⟨s.pool.engines.map released, []⟩
        router := { s.router with outputs := s.router.outputs.map unheld } } : State).promoteKeys
    let empty (p : Programme) : Programme := ⟨p.service, none, none, none, none, 0, false, now + 2000⟩
    let emptied : State :=
      { s₁ with cells := { s.cells with programmes := s.cells.programmes.map empty } }
    let told := allScreens.filter fun o =>
      match (s.output o).route.bind s.programme with
      | some p => p.title.isSome || p.rating.isSome || p.noSignal
      | none => false
    let routed := allScreens.filter fun o => (s.output o).route.isSome
    let cleared (x : Output) : Output :=
      if x.route = none then x else { x with contentSeen := false, noTitleAt := none, noInfo := false }
    ∃ s₂ s₃, LapsedAndReran (emptied.rerated s₁) told emptied s₂ ∧
      Reran routed { s₂ with router := { s₂.router with outputs := s₂.router.outputs.map cleared } } s₃ ∧
      exec (.restartStreams t) s = .next (s₃.reply .ok [])

/-- R175 to R178, R142: POWER_ON takes the part through stages 1 to 3 of start-up, whatever it did before: the
retained items as last made durable from an intact store, or their values after a store loss, with PROPERTY
raised; every volatile item at its start-up value; the straps sampled, of which the maintenance strap opens
the window for 30 minutes; and the first close of stage 4 begun. POWER_LOSS leaves the store alone; without
power the part takes no step. The model's choices here: logs 1, 10 (the first probe), 26, 48 and 66 (the part count
of an assembly with no version), and log 13: that the first frame boundary is due one interval after the clocks
start. -/
def Obligations.PowerOnRestoresTheStore : Prop :=
  (∀ (fastBaud maintenance : Bool) (boot : Boot) (s : State),
    let lost : Retained :=
      { room := ⟨.vacant, none, none, 0, 0, 0, false, false, true, 0, 0⟩
        unitKey := none
        accessKeys := List.replicate 16 none
        lock := ⟨4, false, none, 0, 0, false⟩
        tiers := 0
        purchases := []
        previews := []
        meter := []
        daySpend := []
        policy := ⟨180, 5, 24, 60, 8, 4, 4, .descriptor⟩
        rates := ⟨0, 0, 0⟩
        settings := ⟨.auto, 1, 50, 48⟩
        records := []
        nextNumber := 1
        reserved := 0
        resetSerial := none }
    let held : Retained := { s.store with
      meter := s.store.meter.map fun x => { x with closing := none, rejoin := none } }
    let items := if boot.storeIntact then held else lost
    let output (present : Bool) : Output :=
      { route := none, staged := none, present := present, candidate := 0, probedAt := 0
        decided := if present then .off else .absent
        shown := .off, shownService := none, contentSeen := false, basis := none, noTitleAt := none
        noInfo := false, engine := none, playSeconds := 0, content := [] }
    ∃ s₀ : State, exec (.powerOn fastBaud maintenance boot) s = .next
        { s₀.closeFound with
          room := ⟨if maintenance then some 1800000 else none, 0, none, [], none⟩ } ∧
      s₀.power = .starting ∧ s₀.cur = items ∧ s₀.store = items ∧
      s₀.time = ⟨0, none, 1000, if items.settings.frameRate = 60 then 50 else 60, false⟩ ∧
      s₀.room = ⟨none, 0, none, [], none⟩ ∧ s₀.cells = ⟨false, []⟩ ∧
      s₀.decoder = ⟨[], none, [], ⟨none, 0, []⟩, ⟨none, 0, []⟩, 0⟩ ∧
      s₀.keys = List.replicate 16 ⟨none, none, ⟨none, none⟩, ⟨none, none⟩⟩ ∧
      s₀.pool = ⟨⟨.off, .off, .off⟩, []⟩ ∧
      s₀.router = ⟨⟨output boot.display1, output boot.display2, output boot.display3, output boot.display4⟩,
        none, true⟩ ∧
      s₀.lock = ⟨none, ⟨none, none, none, none⟩, none, [], none, false⟩ ∧
      s₀.billing = ⟨[], [], none, none, none, none, none, none, false, false, [], [], [], [], false, []⟩ ∧
      s₀.turns = [] ∧ s₀.serials = [] ∧
      s₀.journal = ⟨0, 1, false, true, none, false⟩ ∧
      s₀.port = {
        opened := false, fastBaud := fastBaud, maintenance := maintenance, receiver := .hunt, lastCharAt := 0,
        lineBreak := false, intake := [], executing := false, guestWaits := false, outbound := [],
        transmitter := .idle, provision := none, settings := none, resetOwed := false, enabled := 0
        events := { Events.clear with property := if boot.storeIntact then ⟨false, 0⟩ else ⟨true, 1⟩ } } ∧
      s₀.pending = s.pending) ∧
  (∀ s : State, s.power ≠ .off → ∃ s', exec .powerLoss s = .next s' ∧
    s'.power = .off ∧ s'.store = s.store ∧ s'.pending = s.pending) ∧
  (∀ (c : Instr) (s : State), s.power = .off → (∀ fastBaud maintenance boot, c ≠ .powerOn fastBaud maintenance boot) →
    exec c s = .next s)

/-- R20, R75, R97, R109, R145, R158, R178: START_UP_STAGE_5 has its effect once no session is left to close: the
armed flag is judged, a running lockout restarts at its full duration, the Cell Front is enabled, the port opened,
the outputs released, and under ALWAYS the OFF engines are powered. R49, R177, R178: a set-port FULL_RESET is
replied OK, after which no request begins, and start-up begins when that reply has left
(RepliesAreQueuedAndSentInOrder); a FULL_RESET message whose serial is not the one held makes it durable, and
start-up begins at that write's completion. It differs from power-on in its straps alone: they stay as sampled,
and the window stays closed. The model's choices here: log 34 (a lockout count of 0 lasts as a count of 1) and
log 23 (reset-serial writes are kept in a list, and the completion of any of them begins start-up). -/
def Obligations.StartUpEndsAndFullResetBeginsIt : Prop :=
  (∀ (t : Nat) (s : State), s.power ≠ .off →
    let now := max s.time.now t
    let minutes := if s.cur.lock.lockouts ≤ 1 then 15 else if s.cur.lock.lockouts = 2 then 30
      else if s.cur.lock.lockouts = 3 then 60 else 120
    let on : Bool := decide (s.cur.settings.power = .always) && !s.cur.room.suspended
    let powered (e : Engine) : Engine := if on = true ∧ e = .off then .warming none (now + 40) else e
    exec (.startUpStage5 t) s = .next (
      if s.power = .starting ∧ s.cur.meter = [] then
        { s.atInstant t with
          power := .running
          journal := { s.journal with armed := decide (s.cur.records.length < s.cur.settings.highMark) }
          lock := { s.lock with
            lockoutAt := if s.cur.lock.running then some (now + minutes * 60000) else none }
          cells := { s.cells with enabled := true }
          port := { s.port with opened := true }
          router := { s.router with dark := false }
          pool := { s.pool with engines := s.pool.engines.map powered } }
      else s.atInstant t)) ∧
  ((∀ (t : Nat) (s : State) (r : Request), Begins 0x19 .service s r →
    ∀ rest, s.port.intake = r :: rest →
    let bytes := frameBytes (replyKind r.kind) r.tag [0, byte rest.length]
    exec (.fullReset t) s = .next { s.atInstant t with port := { s.port with
      intake := rest
      executing := false
      guestWaits := false
      resetOwed := true
      outbound := s.port.outbound ++ [⟨bytes, false, true⟩]
      transmitter :=
        if s.port.transmitter = .idle ∧ s.port.lineBreak = false then .reply else s.port.transmitter } }) ∧
  (∀ (t : Nat) (s : State) (scope : Scope) (issue serial : Nat), Awaits s scope issue (.fullReset serial) →
    exec (.fullResetMessage t) s = .next (
      { s.receiving scope issue (.fullReset serial) t with
        serials := if s.cur.resetSerial = some serial then s.serials else s.serials ++ [serial] }.judgeHanded
      s.decoder.handed)) ∧
  (∀ (t serial : Nat) (boot : Boot) (s : State), s.power ≠ .off → serial ∈ s.serials →
    exec (.resetSerialWriteComplete t serial boot) s = .next
      (({ s.atInstant t with store := { s.store with resetSerial := some serial } } : State).fullReset boot)) ∧
  (∀ (boot : Boot) (s : State),
    exec (.powerOn s.port.fastBaud false boot) s = .next
      ({ s.fullReset boot with port := { (s.fullReset boot).port with maintenance := false } } : State)))

/-! ## The part as a whole -/

/-- A step takes the command at the front of the queue and runs it with the rest; with an empty queue the part
idles (log 3). -/
def Obligations.StepRunsTheCommandAtTheFront : Prop :=
  ∀ (s : State), (s.pending = [] → step s = .next s) ∧
    ∀ (c : Instr) (rest : List Instr),
      step { s with pending := c :: rest } = exec c { s with pending := rest }

/-- No command stops the part: every command answers a next state, and leaves the queue of the commands that
wait as it was; monotonic time does not run back (R172), but that it stands at 0 after a command that begins a
start-up, and after a power loss. The model's choices here: logs 1 and 32 (the clock of a part without power). -/
def Obligations.EveryCommandAnswersANextState : Prop :=
  ∀ (c : Instr) (s : State), ∃ s', exec c s = .next s' ∧ s'.pending = s.pending ∧
    let restarts : Prop :=
      match c with
      | .powerOn .. | .powerLoss => True
      | .resetSerialWriteComplete _ serial _ => serial ∈ s.serials
      | .frameTransmitted .. => s.port.transmitter = .reply ∧ ∃ f fs, s.port.outbound = f :: fs ∧ f.resets = true
      | .lineBreak .. =>
        s.port.opened = true ∧ s.port.lineBreak = false ∧ ∃ f ∈ s.port.outbound, f.resets = true
      | _ => False
    s.time.now ≤ s'.time.now ∨ restarts ∧ s'.time.now = 0

/-- R135, R148: every step keeps the meter tables lawful, in use, in the store and in the writes in flight: one
session a service, at most four, and as many reserved slots. -/
def Obligations.EveryStepKeepsTheMeterTablesLawful : Prop :=
  ∀ s s' : State, s.MeterLaw → step s = .next s' → s'.MeterLaw

/-- R1, R4, R9, R147: every step keeps the records of the journal numbered in rising order below the next number,
in use and in the store, and the room record in use equal to the durable one, with a folio exactly while OCCUPIED
and a settling folio while SETTLING. -/
def Obligations.EveryStepKeepsTheJournalAndTheRoomRecordLawful : Prop :=
  (∀ s s' : State, JournalLaw s.cur → JournalLaw s.store → step s = .next s' →
    JournalLaw s'.cur ∧ JournalLaw s'.store) ∧
  (∀ s s' : State, s.RoomLaw → step s = .next s' → s'.RoomLaw)

/-- R4, R21, R24, R39, R102, R115, R117, R161, R164: every step keeps the lineup and the catalogue in order and
within their bounds, the queues and counters within theirs, and one programme record for each in-use service and
for no other. -/
def Obligations.EveryStepKeepsTheVolatileTablesLawful : Prop :=
  (∀ s s' : State, LineupLaw s.billing.lineup → step s = .next s' → LineupLaw s'.billing.lineup) ∧
  (∀ s s' : State, CatalogueLaw s.billing.catalogue → step s = .next s' → CatalogueLaw s'.billing.catalogue) ∧
  (∀ s s' : State, s.Bounds → step s = .next s' → s'.Bounds) ∧
  (∀ s s' : State, s.FilterLaw → step s = .next s' → s'.FilterLaw)

/-- R50, R57, R69, R70: every step keeps engines bound to different services, no service waiting that has an
engine, none waiting while an engine is free, and a pending cell key only beside a current one of a parity in
use. -/
def Obligations.EveryStepKeepsEnginesAndPendingKeysLawful : Prop :=
  (∀ s s' : State, s.BindingLaw → step s = .next s' → s'.BindingLaw) ∧
  (∀ s s' : State, s.KeyLaw → step s = .next s' → s'.KeyLaw)

/-- The laws every step keeps hold after reset, which is the model's choice of log 2. -/
def Obligations.LawsHoldAtReset : Prop :=
  State.reset.MeterLaw ∧ JournalLaw State.reset.cur ∧ JournalLaw State.reset.store ∧ State.reset.RoomLaw ∧
    LineupLaw State.reset.billing.lineup ∧ CatalogueLaw State.reset.billing.catalogue ∧ State.reset.Bounds ∧
    State.reset.FilterLaw ∧ State.reset.BindingLaw ∧ State.reset.KeyLaw

end Statements
end

