-- ==== Sys2Proof/Laws/State.lean ====
section
/-! SUPPORT. One lemma per field for each updater of the state: the field it updates, and the fields it
leaves. -/

namespace Sys2Proof.Machine.State

section onTime

variable (f : Timebase → Timebase) (s : State)

@[simp] theorem onTime_power : (s.onTime f).power = s.power := rfl
@[simp] theorem onTime_time : (s.onTime f).time = f s.time := rfl
@[simp] theorem onTime_cur : (s.onTime f).cur = s.cur := rfl
@[simp] theorem onTime_store : (s.onTime f).store = s.store := rfl
@[simp] theorem onTime_room : (s.onTime f).room = s.room := rfl
@[simp] theorem onTime_cells : (s.onTime f).cells = s.cells := rfl
@[simp] theorem onTime_decoder : (s.onTime f).decoder = s.decoder := rfl
@[simp] theorem onTime_keys : (s.onTime f).keys = s.keys := rfl
@[simp] theorem onTime_pool : (s.onTime f).pool = s.pool := rfl
@[simp] theorem onTime_router : (s.onTime f).router = s.router := rfl
@[simp] theorem onTime_lock : (s.onTime f).lock = s.lock := rfl
@[simp] theorem onTime_billing : (s.onTime f).billing = s.billing := rfl
@[simp] theorem onTime_turns : (s.onTime f).turns = s.turns := rfl
@[simp] theorem onTime_journal : (s.onTime f).journal = s.journal := rfl
@[simp] theorem onTime_port : (s.onTime f).port = s.port := rfl
@[simp] theorem onTime_serials : (s.onTime f).serials = s.serials := rfl
@[simp] theorem onTime_choices : (s.onTime f).choices = s.choices := rfl
@[simp] theorem onTime_pending : (s.onTime f).pending = s.pending := rfl

end onTime

section onCur

variable (f : Retained → Retained) (s : State)

@[simp] theorem onCur_power : (s.onCur f).power = s.power := rfl
@[simp] theorem onCur_time : (s.onCur f).time = s.time := rfl
@[simp] theorem onCur_cur : (s.onCur f).cur = f s.cur := rfl
@[simp] theorem onCur_store : (s.onCur f).store = s.store := rfl
@[simp] theorem onCur_room : (s.onCur f).room = s.room := rfl
@[simp] theorem onCur_cells : (s.onCur f).cells = s.cells := rfl
@[simp] theorem onCur_decoder : (s.onCur f).decoder = s.decoder := rfl
@[simp] theorem onCur_keys : (s.onCur f).keys = s.keys := rfl
@[simp] theorem onCur_pool : (s.onCur f).pool = s.pool := rfl
@[simp] theorem onCur_router : (s.onCur f).router = s.router := rfl
@[simp] theorem onCur_lock : (s.onCur f).lock = s.lock := rfl
@[simp] theorem onCur_billing : (s.onCur f).billing = s.billing := rfl
@[simp] theorem onCur_turns : (s.onCur f).turns = s.turns := rfl
@[simp] theorem onCur_journal : (s.onCur f).journal = s.journal := rfl
@[simp] theorem onCur_port : (s.onCur f).port = s.port := rfl
@[simp] theorem onCur_serials : (s.onCur f).serials = s.serials := rfl
@[simp] theorem onCur_choices : (s.onCur f).choices = s.choices := rfl
@[simp] theorem onCur_pending : (s.onCur f).pending = s.pending := rfl

end onCur

section onStore

variable (f : Retained → Retained) (s : State)

@[simp] theorem onStore_power : (s.onStore f).power = s.power := rfl
@[simp] theorem onStore_time : (s.onStore f).time = s.time := rfl
@[simp] theorem onStore_cur : (s.onStore f).cur = s.cur := rfl
@[simp] theorem onStore_store : (s.onStore f).store = f s.store := rfl
@[simp] theorem onStore_room : (s.onStore f).room = s.room := rfl
@[simp] theorem onStore_cells : (s.onStore f).cells = s.cells := rfl
@[simp] theorem onStore_decoder : (s.onStore f).decoder = s.decoder := rfl
@[simp] theorem onStore_keys : (s.onStore f).keys = s.keys := rfl
@[simp] theorem onStore_pool : (s.onStore f).pool = s.pool := rfl
@[simp] theorem onStore_router : (s.onStore f).router = s.router := rfl
@[simp] theorem onStore_lock : (s.onStore f).lock = s.lock := rfl
@[simp] theorem onStore_billing : (s.onStore f).billing = s.billing := rfl
@[simp] theorem onStore_turns : (s.onStore f).turns = s.turns := rfl
@[simp] theorem onStore_journal : (s.onStore f).journal = s.journal := rfl
@[simp] theorem onStore_port : (s.onStore f).port = s.port := rfl
@[simp] theorem onStore_serials : (s.onStore f).serials = s.serials := rfl
@[simp] theorem onStore_choices : (s.onStore f).choices = s.choices := rfl
@[simp] theorem onStore_pending : (s.onStore f).pending = s.pending := rfl

end onStore

section onRoom

variable (f : Room → Room) (s : State)

@[simp] theorem onRoom_power : (s.onRoom f).power = s.power := rfl
@[simp] theorem onRoom_time : (s.onRoom f).time = s.time := rfl
@[simp] theorem onRoom_cur : (s.onRoom f).cur = s.cur := rfl
@[simp] theorem onRoom_store : (s.onRoom f).store = s.store := rfl
@[simp] theorem onRoom_room : (s.onRoom f).room = f s.room := rfl
@[simp] theorem onRoom_cells : (s.onRoom f).cells = s.cells := rfl
@[simp] theorem onRoom_decoder : (s.onRoom f).decoder = s.decoder := rfl
@[simp] theorem onRoom_keys : (s.onRoom f).keys = s.keys := rfl
@[simp] theorem onRoom_pool : (s.onRoom f).pool = s.pool := rfl
@[simp] theorem onRoom_router : (s.onRoom f).router = s.router := rfl
@[simp] theorem onRoom_lock : (s.onRoom f).lock = s.lock := rfl
@[simp] theorem onRoom_billing : (s.onRoom f).billing = s.billing := rfl
@[simp] theorem onRoom_turns : (s.onRoom f).turns = s.turns := rfl
@[simp] theorem onRoom_journal : (s.onRoom f).journal = s.journal := rfl
@[simp] theorem onRoom_port : (s.onRoom f).port = s.port := rfl
@[simp] theorem onRoom_serials : (s.onRoom f).serials = s.serials := rfl
@[simp] theorem onRoom_choices : (s.onRoom f).choices = s.choices := rfl
@[simp] theorem onRoom_pending : (s.onRoom f).pending = s.pending := rfl

end onRoom

section onCells

variable (f : CellFront → CellFront) (s : State)

@[simp] theorem onCells_power : (s.onCells f).power = s.power := rfl
@[simp] theorem onCells_time : (s.onCells f).time = s.time := rfl
@[simp] theorem onCells_cur : (s.onCells f).cur = s.cur := rfl
@[simp] theorem onCells_store : (s.onCells f).store = s.store := rfl
@[simp] theorem onCells_room : (s.onCells f).room = s.room := rfl
@[simp] theorem onCells_cells : (s.onCells f).cells = f s.cells := rfl
@[simp] theorem onCells_decoder : (s.onCells f).decoder = s.decoder := rfl
@[simp] theorem onCells_keys : (s.onCells f).keys = s.keys := rfl
@[simp] theorem onCells_pool : (s.onCells f).pool = s.pool := rfl
@[simp] theorem onCells_router : (s.onCells f).router = s.router := rfl
@[simp] theorem onCells_lock : (s.onCells f).lock = s.lock := rfl
@[simp] theorem onCells_billing : (s.onCells f).billing = s.billing := rfl
@[simp] theorem onCells_turns : (s.onCells f).turns = s.turns := rfl
@[simp] theorem onCells_journal : (s.onCells f).journal = s.journal := rfl
@[simp] theorem onCells_port : (s.onCells f).port = s.port := rfl
@[simp] theorem onCells_serials : (s.onCells f).serials = s.serials := rfl
@[simp] theorem onCells_choices : (s.onCells f).choices = s.choices := rfl
@[simp] theorem onCells_pending : (s.onCells f).pending = s.pending := rfl

end onCells

section onDecoder

variable (f : Decoder → Decoder) (s : State)

@[simp] theorem onDecoder_power : (s.onDecoder f).power = s.power := rfl
@[simp] theorem onDecoder_time : (s.onDecoder f).time = s.time := rfl
@[simp] theorem onDecoder_cur : (s.onDecoder f).cur = s.cur := rfl
@[simp] theorem onDecoder_store : (s.onDecoder f).store = s.store := rfl
@[simp] theorem onDecoder_room : (s.onDecoder f).room = s.room := rfl
@[simp] theorem onDecoder_cells : (s.onDecoder f).cells = s.cells := rfl
@[simp] theorem onDecoder_decoder : (s.onDecoder f).decoder = f s.decoder := rfl
@[simp] theorem onDecoder_keys : (s.onDecoder f).keys = s.keys := rfl
@[simp] theorem onDecoder_pool : (s.onDecoder f).pool = s.pool := rfl
@[simp] theorem onDecoder_router : (s.onDecoder f).router = s.router := rfl
@[simp] theorem onDecoder_lock : (s.onDecoder f).lock = s.lock := rfl
@[simp] theorem onDecoder_billing : (s.onDecoder f).billing = s.billing := rfl
@[simp] theorem onDecoder_turns : (s.onDecoder f).turns = s.turns := rfl
@[simp] theorem onDecoder_journal : (s.onDecoder f).journal = s.journal := rfl
@[simp] theorem onDecoder_port : (s.onDecoder f).port = s.port := rfl
@[simp] theorem onDecoder_serials : (s.onDecoder f).serials = s.serials := rfl
@[simp] theorem onDecoder_choices : (s.onDecoder f).choices = s.choices := rfl
@[simp] theorem onDecoder_pending : (s.onDecoder f).pending = s.pending := rfl

end onDecoder

section onKeys

variable (f : List KeyGroup → List KeyGroup) (s : State)

@[simp] theorem onKeys_power : (s.onKeys f).power = s.power := rfl
@[simp] theorem onKeys_time : (s.onKeys f).time = s.time := rfl
@[simp] theorem onKeys_cur : (s.onKeys f).cur = s.cur := rfl
@[simp] theorem onKeys_store : (s.onKeys f).store = s.store := rfl
@[simp] theorem onKeys_room : (s.onKeys f).room = s.room := rfl
@[simp] theorem onKeys_cells : (s.onKeys f).cells = s.cells := rfl
@[simp] theorem onKeys_decoder : (s.onKeys f).decoder = s.decoder := rfl
@[simp] theorem onKeys_keys : (s.onKeys f).keys = f s.keys := rfl
@[simp] theorem onKeys_pool : (s.onKeys f).pool = s.pool := rfl
@[simp] theorem onKeys_router : (s.onKeys f).router = s.router := rfl
@[simp] theorem onKeys_lock : (s.onKeys f).lock = s.lock := rfl
@[simp] theorem onKeys_billing : (s.onKeys f).billing = s.billing := rfl
@[simp] theorem onKeys_turns : (s.onKeys f).turns = s.turns := rfl
@[simp] theorem onKeys_journal : (s.onKeys f).journal = s.journal := rfl
@[simp] theorem onKeys_port : (s.onKeys f).port = s.port := rfl
@[simp] theorem onKeys_serials : (s.onKeys f).serials = s.serials := rfl
@[simp] theorem onKeys_choices : (s.onKeys f).choices = s.choices := rfl
@[simp] theorem onKeys_pending : (s.onKeys f).pending = s.pending := rfl

end onKeys

section onPool

variable (f : Pool → Pool) (s : State)

@[simp] theorem onPool_power : (s.onPool f).power = s.power := rfl
@[simp] theorem onPool_time : (s.onPool f).time = s.time := rfl
@[simp] theorem onPool_cur : (s.onPool f).cur = s.cur := rfl
@[simp] theorem onPool_store : (s.onPool f).store = s.store := rfl
@[simp] theorem onPool_room : (s.onPool f).room = s.room := rfl
@[simp] theorem onPool_cells : (s.onPool f).cells = s.cells := rfl
@[simp] theorem onPool_decoder : (s.onPool f).decoder = s.decoder := rfl
@[simp] theorem onPool_keys : (s.onPool f).keys = s.keys := rfl
@[simp] theorem onPool_pool : (s.onPool f).pool = f s.pool := rfl
@[simp] theorem onPool_router : (s.onPool f).router = s.router := rfl
@[simp] theorem onPool_lock : (s.onPool f).lock = s.lock := rfl
@[simp] theorem onPool_billing : (s.onPool f).billing = s.billing := rfl
@[simp] theorem onPool_turns : (s.onPool f).turns = s.turns := rfl
@[simp] theorem onPool_journal : (s.onPool f).journal = s.journal := rfl
@[simp] theorem onPool_port : (s.onPool f).port = s.port := rfl
@[simp] theorem onPool_serials : (s.onPool f).serials = s.serials := rfl
@[simp] theorem onPool_choices : (s.onPool f).choices = s.choices := rfl
@[simp] theorem onPool_pending : (s.onPool f).pending = s.pending := rfl

end onPool

section onRouter

variable (f : Router → Router) (s : State)

@[simp] theorem onRouter_power : (s.onRouter f).power = s.power := rfl
@[simp] theorem onRouter_time : (s.onRouter f).time = s.time := rfl
@[simp] theorem onRouter_cur : (s.onRouter f).cur = s.cur := rfl
@[simp] theorem onRouter_store : (s.onRouter f).store = s.store := rfl
@[simp] theorem onRouter_room : (s.onRouter f).room = s.room := rfl
@[simp] theorem onRouter_cells : (s.onRouter f).cells = s.cells := rfl
@[simp] theorem onRouter_decoder : (s.onRouter f).decoder = s.decoder := rfl
@[simp] theorem onRouter_keys : (s.onRouter f).keys = s.keys := rfl
@[simp] theorem onRouter_pool : (s.onRouter f).pool = s.pool := rfl
@[simp] theorem onRouter_router : (s.onRouter f).router = f s.router := rfl
@[simp] theorem onRouter_lock : (s.onRouter f).lock = s.lock := rfl
@[simp] theorem onRouter_billing : (s.onRouter f).billing = s.billing := rfl
@[simp] theorem onRouter_turns : (s.onRouter f).turns = s.turns := rfl
@[simp] theorem onRouter_journal : (s.onRouter f).journal = s.journal := rfl
@[simp] theorem onRouter_port : (s.onRouter f).port = s.port := rfl
@[simp] theorem onRouter_serials : (s.onRouter f).serials = s.serials := rfl
@[simp] theorem onRouter_choices : (s.onRouter f).choices = s.choices := rfl
@[simp] theorem onRouter_pending : (s.onRouter f).pending = s.pending := rfl

end onRouter

section onLock

variable (f : Lock → Lock) (s : State)

@[simp] theorem onLock_power : (s.onLock f).power = s.power := rfl
@[simp] theorem onLock_time : (s.onLock f).time = s.time := rfl
@[simp] theorem onLock_cur : (s.onLock f).cur = s.cur := rfl
@[simp] theorem onLock_store : (s.onLock f).store = s.store := rfl
@[simp] theorem onLock_room : (s.onLock f).room = s.room := rfl
@[simp] theorem onLock_cells : (s.onLock f).cells = s.cells := rfl
@[simp] theorem onLock_decoder : (s.onLock f).decoder = s.decoder := rfl
@[simp] theorem onLock_keys : (s.onLock f).keys = s.keys := rfl
@[simp] theorem onLock_pool : (s.onLock f).pool = s.pool := rfl
@[simp] theorem onLock_router : (s.onLock f).router = s.router := rfl
@[simp] theorem onLock_lock : (s.onLock f).lock = f s.lock := rfl
@[simp] theorem onLock_billing : (s.onLock f).billing = s.billing := rfl
@[simp] theorem onLock_turns : (s.onLock f).turns = s.turns := rfl
@[simp] theorem onLock_journal : (s.onLock f).journal = s.journal := rfl
@[simp] theorem onLock_port : (s.onLock f).port = s.port := rfl
@[simp] theorem onLock_serials : (s.onLock f).serials = s.serials := rfl
@[simp] theorem onLock_choices : (s.onLock f).choices = s.choices := rfl
@[simp] theorem onLock_pending : (s.onLock f).pending = s.pending := rfl

end onLock

section onBilling

variable (f : Billing → Billing) (s : State)

@[simp] theorem onBilling_power : (s.onBilling f).power = s.power := rfl
@[simp] theorem onBilling_time : (s.onBilling f).time = s.time := rfl
@[simp] theorem onBilling_cur : (s.onBilling f).cur = s.cur := rfl
@[simp] theorem onBilling_store : (s.onBilling f).store = s.store := rfl
@[simp] theorem onBilling_room : (s.onBilling f).room = s.room := rfl
@[simp] theorem onBilling_cells : (s.onBilling f).cells = s.cells := rfl
@[simp] theorem onBilling_decoder : (s.onBilling f).decoder = s.decoder := rfl
@[simp] theorem onBilling_keys : (s.onBilling f).keys = s.keys := rfl
@[simp] theorem onBilling_pool : (s.onBilling f).pool = s.pool := rfl
@[simp] theorem onBilling_router : (s.onBilling f).router = s.router := rfl
@[simp] theorem onBilling_lock : (s.onBilling f).lock = s.lock := rfl
@[simp] theorem onBilling_billing : (s.onBilling f).billing = f s.billing := rfl
@[simp] theorem onBilling_turns : (s.onBilling f).turns = s.turns := rfl
@[simp] theorem onBilling_journal : (s.onBilling f).journal = s.journal := rfl
@[simp] theorem onBilling_port : (s.onBilling f).port = s.port := rfl
@[simp] theorem onBilling_serials : (s.onBilling f).serials = s.serials := rfl
@[simp] theorem onBilling_choices : (s.onBilling f).choices = s.choices := rfl
@[simp] theorem onBilling_pending : (s.onBilling f).pending = s.pending := rfl

end onBilling

section onTurns

variable (f : List TurnWrite → List TurnWrite) (s : State)

@[simp] theorem onTurns_power : (s.onTurns f).power = s.power := rfl
@[simp] theorem onTurns_time : (s.onTurns f).time = s.time := rfl
@[simp] theorem onTurns_cur : (s.onTurns f).cur = s.cur := rfl
@[simp] theorem onTurns_store : (s.onTurns f).store = s.store := rfl
@[simp] theorem onTurns_room : (s.onTurns f).room = s.room := rfl
@[simp] theorem onTurns_cells : (s.onTurns f).cells = s.cells := rfl
@[simp] theorem onTurns_decoder : (s.onTurns f).decoder = s.decoder := rfl
@[simp] theorem onTurns_keys : (s.onTurns f).keys = s.keys := rfl
@[simp] theorem onTurns_pool : (s.onTurns f).pool = s.pool := rfl
@[simp] theorem onTurns_router : (s.onTurns f).router = s.router := rfl
@[simp] theorem onTurns_lock : (s.onTurns f).lock = s.lock := rfl
@[simp] theorem onTurns_billing : (s.onTurns f).billing = s.billing := rfl
@[simp] theorem onTurns_turns : (s.onTurns f).turns = f s.turns := rfl
@[simp] theorem onTurns_journal : (s.onTurns f).journal = s.journal := rfl
@[simp] theorem onTurns_port : (s.onTurns f).port = s.port := rfl
@[simp] theorem onTurns_serials : (s.onTurns f).serials = s.serials := rfl
@[simp] theorem onTurns_choices : (s.onTurns f).choices = s.choices := rfl
@[simp] theorem onTurns_pending : (s.onTurns f).pending = s.pending := rfl

end onTurns

section onJournal

variable (f : Journal → Journal) (s : State)

@[simp] theorem onJournal_power : (s.onJournal f).power = s.power := rfl
@[simp] theorem onJournal_time : (s.onJournal f).time = s.time := rfl
@[simp] theorem onJournal_cur : (s.onJournal f).cur = s.cur := rfl
@[simp] theorem onJournal_store : (s.onJournal f).store = s.store := rfl
@[simp] theorem onJournal_room : (s.onJournal f).room = s.room := rfl
@[simp] theorem onJournal_cells : (s.onJournal f).cells = s.cells := rfl
@[simp] theorem onJournal_decoder : (s.onJournal f).decoder = s.decoder := rfl
@[simp] theorem onJournal_keys : (s.onJournal f).keys = s.keys := rfl
@[simp] theorem onJournal_pool : (s.onJournal f).pool = s.pool := rfl
@[simp] theorem onJournal_router : (s.onJournal f).router = s.router := rfl
@[simp] theorem onJournal_lock : (s.onJournal f).lock = s.lock := rfl
@[simp] theorem onJournal_billing : (s.onJournal f).billing = s.billing := rfl
@[simp] theorem onJournal_turns : (s.onJournal f).turns = s.turns := rfl
@[simp] theorem onJournal_journal : (s.onJournal f).journal = f s.journal := rfl
@[simp] theorem onJournal_port : (s.onJournal f).port = s.port := rfl
@[simp] theorem onJournal_serials : (s.onJournal f).serials = s.serials := rfl
@[simp] theorem onJournal_choices : (s.onJournal f).choices = s.choices := rfl
@[simp] theorem onJournal_pending : (s.onJournal f).pending = s.pending := rfl

end onJournal

section onPort

variable (f : Port → Port) (s : State)

@[simp] theorem onPort_power : (s.onPort f).power = s.power := rfl
@[simp] theorem onPort_time : (s.onPort f).time = s.time := rfl
@[simp] theorem onPort_cur : (s.onPort f).cur = s.cur := rfl
@[simp] theorem onPort_store : (s.onPort f).store = s.store := rfl
@[simp] theorem onPort_room : (s.onPort f).room = s.room := rfl
@[simp] theorem onPort_cells : (s.onPort f).cells = s.cells := rfl
@[simp] theorem onPort_decoder : (s.onPort f).decoder = s.decoder := rfl
@[simp] theorem onPort_keys : (s.onPort f).keys = s.keys := rfl
@[simp] theorem onPort_pool : (s.onPort f).pool = s.pool := rfl
@[simp] theorem onPort_router : (s.onPort f).router = s.router := rfl
@[simp] theorem onPort_lock : (s.onPort f).lock = s.lock := rfl
@[simp] theorem onPort_billing : (s.onPort f).billing = s.billing := rfl
@[simp] theorem onPort_turns : (s.onPort f).turns = s.turns := rfl
@[simp] theorem onPort_journal : (s.onPort f).journal = s.journal := rfl
@[simp] theorem onPort_port : (s.onPort f).port = f s.port := rfl
@[simp] theorem onPort_serials : (s.onPort f).serials = s.serials := rfl
@[simp] theorem onPort_choices : (s.onPort f).choices = s.choices := rfl
@[simp] theorem onPort_pending : (s.onPort f).pending = s.pending := rfl

end onPort

section onSerials

variable (f : List Nat → List Nat) (s : State)

@[simp] theorem onSerials_power : (s.onSerials f).power = s.power := rfl
@[simp] theorem onSerials_time : (s.onSerials f).time = s.time := rfl
@[simp] theorem onSerials_cur : (s.onSerials f).cur = s.cur := rfl
@[simp] theorem onSerials_store : (s.onSerials f).store = s.store := rfl
@[simp] theorem onSerials_room : (s.onSerials f).room = s.room := rfl
@[simp] theorem onSerials_cells : (s.onSerials f).cells = s.cells := rfl
@[simp] theorem onSerials_decoder : (s.onSerials f).decoder = s.decoder := rfl
@[simp] theorem onSerials_keys : (s.onSerials f).keys = s.keys := rfl
@[simp] theorem onSerials_pool : (s.onSerials f).pool = s.pool := rfl
@[simp] theorem onSerials_router : (s.onSerials f).router = s.router := rfl
@[simp] theorem onSerials_lock : (s.onSerials f).lock = s.lock := rfl
@[simp] theorem onSerials_billing : (s.onSerials f).billing = s.billing := rfl
@[simp] theorem onSerials_turns : (s.onSerials f).turns = s.turns := rfl
@[simp] theorem onSerials_journal : (s.onSerials f).journal = s.journal := rfl
@[simp] theorem onSerials_port : (s.onSerials f).port = s.port := rfl
@[simp] theorem onSerials_serials : (s.onSerials f).serials = f s.serials := rfl
@[simp] theorem onSerials_choices : (s.onSerials f).choices = s.choices := rfl
@[simp] theorem onSerials_pending : (s.onSerials f).pending = s.pending := rfl

end onSerials

section onChoices

variable (f : Nat → Nat) (s : State)

@[simp] theorem onChoices_power : (s.onChoices f).power = s.power := rfl
@[simp] theorem onChoices_time : (s.onChoices f).time = s.time := rfl
@[simp] theorem onChoices_cur : (s.onChoices f).cur = s.cur := rfl
@[simp] theorem onChoices_store : (s.onChoices f).store = s.store := rfl
@[simp] theorem onChoices_room : (s.onChoices f).room = s.room := rfl
@[simp] theorem onChoices_cells : (s.onChoices f).cells = s.cells := rfl
@[simp] theorem onChoices_decoder : (s.onChoices f).decoder = s.decoder := rfl
@[simp] theorem onChoices_keys : (s.onChoices f).keys = s.keys := rfl
@[simp] theorem onChoices_pool : (s.onChoices f).pool = s.pool := rfl
@[simp] theorem onChoices_router : (s.onChoices f).router = s.router := rfl
@[simp] theorem onChoices_lock : (s.onChoices f).lock = s.lock := rfl
@[simp] theorem onChoices_billing : (s.onChoices f).billing = s.billing := rfl
@[simp] theorem onChoices_turns : (s.onChoices f).turns = s.turns := rfl
@[simp] theorem onChoices_journal : (s.onChoices f).journal = s.journal := rfl
@[simp] theorem onChoices_port : (s.onChoices f).port = s.port := rfl
@[simp] theorem onChoices_serials : (s.onChoices f).serials = s.serials := rfl
@[simp] theorem onChoices_choices : (s.onChoices f).choices = f s.choices := rfl
@[simp] theorem onChoices_pending : (s.onChoices f).pending = s.pending := rfl

end onChoices

end Sys2Proof.Machine.State
end

