-- ==== Sys2Proof/Laws/Verdicts.lean ====
section
/-! SUPPORT. What runs of verdicts and lapses of unlocks leave as it was: one lemma per operation they are
made of (`OnlyVerdicts`, `OnlyLapses`). -/

namespace Sys2Proof.Machine

/-! ## Items by number -/

@[simp] theorem Four.get_set_same (f : Four α) (v : α) (o : Screen) : (f.set v o).get o = v := by
  fin_cases o <;> rfl

theorem Four.get_set_other (f : Four α) (v : α) {o p : Screen} (h : p ≠ o) :
    (f.set v o).get p = f.get p := by
  fin_cases o <;> fin_cases p <;> first | rfl | exact absurd rfl h

@[simp] theorem Four.get_map (g : α → β) (f : Four α) (o : Screen) : (f.map g).get o = g (f.get o) := by
  fin_cases o <;> rfl

@[simp] theorem Three.get_set_same (f : Three α) (v : α) (e : EngineId) : (f.set v e).get e = v := by
  fin_cases e <;> rfl

theorem Three.get_set_other (f : Three α) (v : α) {e d : EngineId} (h : d ≠ e) :
    (f.set v e).get d = f.get d := by
  fin_cases e <;> fin_cases d <;> first | rfl | exact absurd rfl h

@[simp] theorem Three.get_map (g : α → β) (f : Three α) (e : EngineId) : (f.map g).get e = g (f.get e) := by
  fin_cases e <;> rfl

@[simp] theorem State.output_onOutput_same (s : State) (o : Screen) (f : Output → Output) :
    (s.onOutput o f).output o = f (s.output o) := by
  simp [State.output, State.onOutput]

theorem State.output_onOutput_other (s : State) (f : Output → Output) {o p : Screen} (h : p ≠ o) :
    (s.onOutput o f).output p = s.output p := by
  simp [State.output, State.onOutput, Four.get_set_other _ _ h]

@[simp] theorem State.output_onOutputs (s : State) (f : Output → Output) (o : Screen) :
    (s.onOutputs f).output o = f (s.output o) := by
  simp [State.output, State.onOutputs]

/-! ## Lists related item by item -/

theorem forall₂_comp {R : α → β → Prop} {S : β → γ → Prop} {T : α → γ → Prop}
    (h : ∀ x y z, R x y → S y z → T x z) {a : List α} {b : List β} {c : List γ}
    (hab : List.Forall₂ R a b) (hbc : List.Forall₂ S b c) : List.Forall₂ T a c := by
  induction hab generalizing c with
  | nil => cases hbc; exact .nil
  | cons hxy _ ih =>
    cases hbc with
    | cons hyz hrest => exact .cons (h _ _ _ hxy hyz) (ih hrest)

theorem forall₂_of_append {R : α → β → Prop} {a b : List α} {c : List β}
    (h : List.Forall₂ R (a ++ b) c) :
    ∃ c₁ c₂, List.Forall₂ R a c₁ ∧ List.Forall₂ R b c₂ ∧ c = c₁ ++ c₂ := by
  induction a generalizing c with
  | nil => exact ⟨[], c, .nil, h, rfl⟩
  | cons x xs ih =>
    cases h with
    | cons hxy hrest =>
      obtain ⟨c₁, c₂, h₁, h₂, rfl⟩ := ih hrest
      exact ⟨_ :: c₁, c₂, .cons hxy h₁, h₂, rfl⟩

theorem forall₂_source {R : α → β → Prop} {a : List α} {b : List β} (h : List.Forall₂ R a b) {y : β}
    (hy : y ∈ b) : ∃ x ∈ a, R x y := by
  induction h with
  | nil => cases hy
  | cons hxy _ ih =>
    rcases List.mem_cons.1 hy with rfl | hy
    · exact ⟨_, .head _, hxy⟩
    · obtain ⟨x, hx, hr⟩ := ih hy
      exact ⟨x, .tail _ hx, hr⟩

/-! ## The relations are reflexive and transitive -/

theorem MeterRan.refl (l : List Session) : MeterRan l l :=
  ⟨l, [], by simp, List.forall₂_same.2 fun _ _ => .inl rfl, by simp⟩

theorem MeterRan.trans {a b c : List Session} (h : MeterRan a b) (k : MeterRan b c) : MeterRan a c := by
  obtain ⟨kept, opened, rfl, hk, ho⟩ := h
  obtain ⟨kept', opened', rfl, hk', ho'⟩ := k
  obtain ⟨l₁, l₂, h₁, h₂, rfl⟩ := forall₂_of_append hk'
  refine ⟨l₁, l₂ ++ opened', by simp, forall₂_comp ?_ hk h₁, fun y hy => ?_⟩
  · rintro x y z (rfl | ⟨hx, rfl⟩) (rfl | ⟨hc, rfl⟩)
    · exact .inl rfl
    · exact .inr ⟨hc, rfl⟩
    · exact .inr ⟨hx, rfl⟩
    · cases hc
  · rcases List.mem_append.1 hy with hy | hy
    · obtain ⟨x, hx, rfl | ⟨_, rfl⟩⟩ := forall₂_source h₂ hy
      · exact ho _ hx
      · have := ho x hx
        exact ⟨this.1, this.2.1, this.2.2.1, this.2.2.2.1, this.2.2.2.2.1, .inr rfl⟩
    · exact ho' y hy

theorem TurnsRan.refl (l : List TurnWrite) : TurnsRan l l :=
  ⟨l, [], by simp, List.forall₂_same.2 fun _ _ => .inl rfl, by simp⟩

theorem TurnsRan.trans {a b c : List TurnWrite} (h : TurnsRan a b) (k : TurnsRan b c) : TurnsRan a c := by
  obtain ⟨begun, joined, rfl, hb, hj⟩ := h
  obtain ⟨begun', joined', rfl, hb', hj'⟩ := k
  obtain ⟨l₁, l₂, h₁, h₂, rfl⟩ := forall₂_of_append hb'
  refine ⟨l₁, l₂ ++ joined', by simp, forall₂_comp ?_ hb h₁, fun w hw => ?_⟩
  · rintro x y z (rfl | ⟨hx, i, rfl⟩) (rfl | ⟨hc, j, rfl⟩)
    · exact .inl rfl
    · exact .inr ⟨hc, j, rfl⟩
    · exact .inr ⟨hx, i, rfl⟩
    · cases hc
  · rcases List.mem_append.1 hw with hw | hw
    · obtain ⟨x, hx, rfl | ⟨_, i, rfl⟩⟩ := forall₂_source h₂ hw
      · exact hj _ hx
      · exact .inl rfl
    · exact hj' w hw

theorem KeyGroup.promote_none (k : KeyGroup) : k.promote true true = k := rfl

theorem KeySlot.promote_promote (k : KeySlot) : k.promote.promote = k.promote := by
  unfold KeySlot.promote; cases h : k.pending <;> simp [h]

theorem KeyGroup.promote_promote (k : KeyGroup) (a b c d : Bool) :
    (k.promote a b).promote c d = k.promote (a && c) (b && d) := by
  cases a <;> cases b <;> cases c <;> cases d <;> simp [KeyGroup.promote, KeySlot.promote_promote]

theorem KeysRan.refl (l : List KeyGroup) : KeysRan l l :=
  List.forall₂_same.2 fun k _ => ⟨true, true, (KeyGroup.promote_none k).symm⟩

theorem KeysRan.trans {a b c : List KeyGroup} (h : KeysRan a b) (k : KeysRan b c) : KeysRan a c :=
  forall₂_comp (fun _ _ _ ⟨p, q, hxy⟩ ⟨p', q', hyz⟩ =>
    ⟨p && p', q && q', by rw [hyz, hxy, KeyGroup.promote_promote]⟩) h k

theorem keysRan_promoteFrom (used : Nat → Parity → Bool) (g : Nat) (l : List KeyGroup) :
    KeysRan l (promoteFrom used g l) := by
  induction l generalizing g with
  | nil => exact .nil
  | cons k ks ih => exact .cons ⟨_, _, rfl⟩ (ih _)

theorem Output.sameRoute.refl (x : Output) : x.sameRoute x := ⟨rfl, rfl, rfl, rfl, rfl, rfl, rfl, rfl, rfl⟩

theorem Output.sameRoute.trans {x y z : Output} (h : x.sameRoute y) (k : y.sameRoute z) : x.sameRoute z := by
  unfold Output.sameRoute at *; simp_all

theorem Apart.refl (s : State) : Apart s s where
  power := rfl
  time := rfl
  cur := rfl
  meter := .refl _
  reserved := rfl
  store := rfl
  room := rfl
  cells := rfl
  decoder := rfl
  keys := .refl _
  hold := rfl
  dark := rfl
  outputs _ := .refl _
  billing := rfl
  accruals := .refl _
  turns := .refl _
  journal := rfl
  armed := id
  serials := rfl
  pending := rfl

theorem Apart.trans {a b c : State} (h : Apart a b) (k : Apart b c) : Apart a c where
  power := k.power.trans h.power
  time := k.time.trans h.time
  cur := by rw [k.cur, h.cur]
  meter := h.meter.trans k.meter
  reserved := by have := h.reserved; have := k.reserved; omega
  store := k.store.trans h.store
  room := k.room.trans h.room
  cells := k.cells.trans h.cells
  decoder := k.decoder.trans h.decoder
  keys := h.keys.trans k.keys
  hold := k.hold.trans h.hold
  dark := k.dark.trans h.dark
  outputs o := (h.outputs o).trans (k.outputs o)
  billing := by rw [k.billing, h.billing]
  accruals := k.accruals.trans h.accruals
  turns := h.turns.trans k.turns
  journal := by rw [k.journal, h.journal]
  armed := h.armed ∘ k.armed
  serials := k.serials.trans h.serials
  pending := k.pending.trans h.pending

theorem OnlyVerdicts.refl (s : State) : OnlyVerdicts s s := ⟨.refl s, rfl, rfl⟩

theorem OnlyVerdicts.trans {a b c : State} (h : OnlyVerdicts a b) (k : OnlyVerdicts b c) :
    OnlyVerdicts a c :=
  ⟨h.toApart.trans k.toApart, k.lock.trans h.lock, by rw [k.port, h.port]⟩

theorem Lapsed.refl (u : Option Unlock) : Lapsed u u := .inl rfl

theorem Lapsed.trans {u v w : Option Unlock} (h : Lapsed u v) (k : Lapsed v w) : Lapsed u w := by
  rcases h with rfl | ⟨rfl, x, rfl, hx⟩
  · exact k
  · rcases k with rfl | ⟨_, y, hy, _⟩
    · exact .inr ⟨rfl, x, rfl, hx⟩
    · cases hy

theorem OnlyLapses.refl (s : State) : OnlyLapses s s :=
  ⟨.refl s, rfl, .refl _, fun _ => .refl _, rfl⟩

theorem OnlyLapses.trans {a b c : State} (h : OnlyLapses a b) (k : OnlyLapses b c) : OnlyLapses a c :=
  ⟨h.toApart.trans k.toApart, by rw [k.lock, h.lock], h.roomUnlock.trans k.roomUnlock,
    fun o => (h.screenUnlock o).trans (k.screenUnlock o), by rw [k.port, h.port]⟩

theorem OnlyVerdicts.lapses {a b : State} (h : OnlyVerdicts a b) : OnlyLapses a b :=
  ⟨h.toApart, by rw [h.lock], by rw [h.lock]; exact .refl _, fun o => by rw [h.lock]; exact .refl _,
    by rw [h.port]⟩

/-! ## The operations a run of a verdict is made of -/

theorem onlyVerdicts_onPool (f : Pool → Pool) (s : State) : OnlyVerdicts s (s.onPool f) :=
  ⟨{ Apart.refl s with }, rfl, rfl⟩

theorem onlyVerdicts_onChoices (f : Nat → Nat) (s : State) : OnlyVerdicts s (s.onChoices f) :=
  ⟨{ Apart.refl s with }, rfl, rfl⟩

theorem onlyVerdicts_promoteKeys (s : State) : OnlyVerdicts s s.promoteKeys :=
  ⟨{ Apart.refl s with keys := keysRan_promoteFrom _ _ _ }, rfl, rfl⟩

theorem onlyVerdicts_onOutput (o : Screen) (f : Output → Output) (s : State)
    (h : (s.output o).sameRoute (f (s.output o))) : OnlyVerdicts s (s.onOutput o f) :=
  ⟨{ Apart.refl s with
      outputs := fun p => by
        by_cases hp : p = o
        · subst hp; rw [State.output_onOutput_same]; exact h
        · rw [State.output_onOutput_other _ _ hp]; exact .refl _ }, rfl, rfl⟩

theorem onlyVerdicts_onOutputs (f : Output → Output) (s : State)
    (h : ∀ o, (s.output o).sameRoute (f (s.output o))) : OnlyVerdicts s (s.onOutputs f) :=
  ⟨{ Apart.refl s with outputs := fun p => by rw [State.output_onOutputs]; exact h p }, rfl, rfl⟩

theorem onlyVerdicts_setEngine (e : EngineId) (v : Engine) (s : State) :
    OnlyVerdicts s (s.setEngine e v) := onlyVerdicts_onPool _ _

theorem onlyVerdicts_onWait (f : List WaitEntry → List WaitEntry) (s : State) :
    OnlyVerdicts s (s.onWait f) := onlyVerdicts_onPool _ _

theorem onlyVerdicts_activate (e : EngineId) (n : Nat) (s : State) : OnlyVerdicts s (s.activate e n) :=
  onlyVerdicts_setEngine _ _ _

theorem Output.sameRoute_hold (e : EngineId) (x : Output) : x.sameRoute (x.hold e) :=
  ⟨rfl, rfl, rfl, rfl, rfl, rfl, rfl, rfl, rfl⟩

theorem Output.sameRoute_unhold (x : Output) : x.sameRoute x.unhold := by
  unfold Output.unhold; split <;> exact ⟨rfl, rfl, rfl, rfl, rfl, rfl, rfl, rfl, rfl⟩

theorem onlyVerdicts_hold (e : EngineId) (o : Screen) (s : State) :
    OnlyVerdicts s (s.onOutput o (.hold e)) :=
  onlyVerdicts_onOutput _ _ _ (Output.sameRoute_hold e _)

theorem onlyVerdicts_holdAll (e : EngineId) (outs : List Screen) (s : State) :
    OnlyVerdicts s (s.holdAll e outs) := by
  unfold State.holdAll
  induction outs generalizing s with
  | nil => exact .refl s
  | cons o os ih => exact (onlyVerdicts_hold e o s).trans (ih _)

theorem onlyVerdicts_freeEngine (e : EngineId) (s : State) : OnlyVerdicts s (s.freeEngine e).1 := by
  unfold State.freeEngine
  split <;> split
  · exact onlyVerdicts_setEngine _ _ _
  · exact onlyVerdicts_setEngine _ _ _
  · exact .refl s
  · exact ((onlyVerdicts_onWait _ _).trans (onlyVerdicts_activate _ _ _)).trans (onlyVerdicts_holdAll _ _ _)
  · exact ((onlyVerdicts_onWait _ _).trans (onlyVerdicts_setEngine _ _ _)).trans
      (onlyVerdicts_holdAll _ _ _)
  · exact .refl s

theorem onlyVerdicts_releaseIfUnheld (e : EngineId) (s : State) :
    OnlyVerdicts s (s.releaseIfUnheld e).1 := by
  unfold State.releaseIfUnheld
  split
  · exact (onlyVerdicts_freeEngine e s).trans (onlyVerdicts_promoteKeys _)
  · exact .refl s

theorem onlyVerdicts_endClaim (o : Screen) (s : State) : OnlyVerdicts s (s.endClaim o).1 := by
  unfold State.endClaim
  split
  · exact onlyVerdicts_onWait _ _
  · exact ((onlyVerdicts_onWait _ _).trans
      (onlyVerdicts_onOutput _ _ _ (Output.sameRoute_unhold _))).trans (onlyVerdicts_releaseIfUnheld _ _)

theorem onlyVerdicts_obtainEngine (o : Screen) (n : Nat) (s : State) :
    OnlyVerdicts s (s.obtainEngine o n) := by
  unfold State.obtainEngine
  split
  · exact (onlyVerdicts_onWait _ _).trans (onlyVerdicts_hold _ _ _)
  split
  · exact ((onlyVerdicts_onWait _ _).trans (onlyVerdicts_activate _ _ _)).trans (onlyVerdicts_hold _ _ _)
  split
  · exact ((onlyVerdicts_onWait _ _).trans (onlyVerdicts_setEngine _ _ _)).trans (onlyVerdicts_hold _ _ _)
  split
  · exact ((onlyVerdicts_onWait _ _).trans (onlyVerdicts_setEngine _ _ _)).trans (onlyVerdicts_hold _ _ _)
  · exact onlyVerdicts_onWait _ _

theorem onlyVerdicts_claim (o : Screen) (n : Nat) (s : State) : OnlyVerdicts s (s.claim o n).1 := by
  have ended : OnlyVerdicts s (s.endOtherClaim o n).1 := by
    unfold State.endOtherClaim
    split
    · exact .refl s
    · exact onlyVerdicts_endClaim o s
  exact (ended.trans (onlyVerdicts_obtainEngine o n _)).trans (onlyVerdicts_promoteKeys _)

/-! ## The access stage -/

theorem beginMeterWrite_ran (image : MeterImage) (l : List TurnWrite) :
    List.Forall₂ (fun w v => v = w ∨ w = .meter none ∧ ∃ i, v = .meter (some i)) l
      (beginMeterWrite image l) := by
  have same : ∀ l : List TurnWrite,
      List.Forall₂ (fun w v => v = w ∨ w = .meter none ∧ ∃ i, v = .meter (some i)) l l :=
    fun l => List.forall₂_same.2 fun _ _ => .inl rfl
  induction l with
  | nil => exact .nil
  | cons w ws ih =>
    unfold beginMeterWrite
    split
    · contradiction
    · rename_i h; cases h; exact .cons (.inr ⟨rfl, _, rfl⟩) (same _)
    · rename_i h; cases h
      split
      · exact same _
      · exact .cons (.inl rfl) ih

theorem onlyVerdicts_turns (l : List TurnWrite) (s : State) (h : TurnsRan s.turns l) :
    OnlyVerdicts s (s.onTurns fun _ => l) :=
  ⟨{ Apart.refl s with turns := h }, rfl, rfl⟩

theorem onlyVerdicts_fallDue (w : TurnWrite) (s : State)
    (h : w.isMeter = true ∨ ∃ n stamp charged, w = .close n stamp charged) :
    OnlyVerdicts s (s.fallDue w) := by
  refine onlyVerdicts_turns (beginMeterWrite s.meterImage (s.turns ++ [w])) s ?_
  have joined : TurnsRan s.turns (s.turns ++ [w]) :=
    ⟨s.turns, [w], rfl, List.forall₂_same.2 fun _ _ => .inl rfl, by simpa using h⟩
  exact joined.trans ⟨_, [], (List.append_nil _).symm, beginMeterWrite_ran _ _, by simp⟩

theorem onlyVerdicts_meterOwed (s : State) :
    OnlyVerdicts s (s.onBilling fun b => { b with meterOwed := true }) :=
  ⟨{ Apart.refl s with billing := rfl }, rfl, rfl⟩

theorem onlyVerdicts_meterChanged (s : State) : OnlyVerdicts s s.meterChanged := by
  unfold State.meterChanged
  split
  · exact onlyVerdicts_meterOwed s
  · exact onlyVerdicts_fallDue _ _ (.inl rfl)

theorem onlyVerdicts_occupancyRose (s : State) : OnlyVerdicts s s.occupancyRose := by
  unfold State.occupancyRose
  split
  · exact ⟨{ Apart.refl s with journal := rfl, armed := fun h => by cases h }, rfl, rfl⟩
  · exact .refl s

/-- An eviction's mark on the session of a service. -/
theorem onlyVerdicts_mark (n : Nat) (s : State) :
    OnlyVerdicts s ((s.onCur (Retained.onSession n (.close .eviction))).onBilling
      fun b => { b with accruals := b.accruals.filter (·.service != n) }) := by
  refine ⟨{ Apart.refl s with
    cur := rfl
    meter := ⟨_, [], (List.append_nil _).symm, ?_, by simp⟩
    reserved := by simp [Retained.onSession]
    billing := rfl
    accruals := List.filter_sublist }, rfl, rfl⟩
  refine List.forall₂_map_right_iff.2 (List.forall₂_same.2 fun x _ => ?_)
  by_cases hn : x.service = n
  · rcases x with ⟨_, _, _, _, _, _, _, _, _, _, _ | c⟩
    · exact .inr ⟨rfl, by simp_all [Session.close]⟩
    · exact .inl (by simp_all [Session.close])
  · simp [hn]

theorem onlyVerdicts_evict (n : Nat) (s : State) : OnlyVerdicts s (s.beginClose n .eviction) := by
  unfold State.beginClose
  split
  · split
    · exact .refl s
    · exact (onlyVerdicts_mark n s).trans (onlyVerdicts_fallDue _ _ (.inr ⟨_, _, _, rfl⟩))
  · exact .refl s

theorem onlyVerdicts_openSession (n : Nat) (time : PTime) (s : State) :
    OnlyVerdicts s (s.openSession n time) := by
  unfold State.openSession
  refine OnlyVerdicts.trans ?_ ((onlyVerdicts_occupancyRose _).trans (onlyVerdicts_meterChanged _))
  exact ⟨{ Apart.refl s with
    cur := rfl
    meter := ⟨s.cur.meter, [_], rfl, List.forall₂_same.2 fun _ _ => .inl rfl, by simp⟩
    reserved := by simp; omega }, rfl, rfl⟩

theorem onlyVerdicts_askMeter (n : Nat) (terms : MeterTerms) (time : PTime) (s : State) :
    OnlyVerdicts s (s.askMeter n terms time).1 := by
  unfold State.askMeter
  split
  · split <;> exact .refl s
  · split
    · split
      · exact .refl s
      · unfold State.closeOldest
        split
        · exact onlyVerdicts_evict _ _
        · exact .refl s
    · split
      · exact .refl s
      · split
        · exact onlyVerdicts_openSession _ _ _
        · exact .refl s

theorem onlyVerdicts_access (n : Nat) (r : Service) (s : State) : OnlyVerdicts s (s.access n r).1 := by
  unfold State.access
  split
  · exact .refl s
  · exact .refl s
  · split <;> exact .refl s
  · split
    · split
      · exact onlyVerdicts_askMeter _ _ _ _
      · exact .refl s
    · exact .refl s

/-! ## Runs and re-runs -/

theorem onlyVerdicts_judge (o : Screen) (s : State) : OnlyVerdicts s (s.judge o).1 := by
  unfold State.judge
  split
  · exact .refl s
  split
  · exact .refl s
  split
  · exact .refl s
  repeat' split
  all_goals first | exact .refl s | exact onlyVerdicts_access _ _ _

theorem Output.sameRoute_endEarly (d : OutState) (x : Output) : x.sameRoute (x.endEarly d) :=
  ⟨rfl, rfl, rfl, rfl, rfl, rfl, rfl, rfl, rfl⟩

theorem Output.sameRoute_endUntitled (now : Nat) (x : Output) : x.sameRoute (x.endUntitled now) := by
  unfold Output.endUntitled; split <;> exact ⟨rfl, rfl, rfl, rfl, rfl, rfl, rfl, rfl, rfl⟩

theorem Output.sameRoute_endPassed (b : Basis) (x : Output) : x.sameRoute (x.endPassed b) :=
  ⟨rfl, rfl, rfl, rfl, rfl, rfl, rfl, rfl, rfl⟩

theorem Output.sameRoute_endEngine (b : Basis) (x : Output) (a : EngineAnswer) :
    x.sameRoute (x.endEngine b a) := by
  unfold Output.endEngine; split <;> exact ⟨rfl, rfl, rfl, rfl, rfl, rfl, rfl, rfl, rfl⟩

theorem onlyVerdicts_verdict (o : Screen) (s : State) : OnlyVerdicts s (s.verdict o).1 := by
  have judged := onlyVerdicts_judge o s
  unfold State.verdict
  split <;> rename_i heq <;> rw [heq] at judged
  · exact (judged.trans (onlyVerdicts_endClaim _ _)).trans
      (onlyVerdicts_onOutput _ _ _ (Output.sameRoute_endEarly _ _))
  · exact (judged.trans (onlyVerdicts_endClaim _ _)).trans
      (onlyVerdicts_onOutput _ _ _ (Output.sameRoute_endUntitled _ _))
  · exact (judged.trans (onlyVerdicts_endClaim _ _)).trans
      (onlyVerdicts_onOutput _ _ _ (Output.sameRoute_endPassed _ _))
  · rename_i s' n b
    have claimed : OnlyVerdicts s (s'.claim o n).1 := judged.trans (onlyVerdicts_claim o n s')
    exact claimed.trans (onlyVerdicts_onOutput o (fun x => x.endEngine b (s'.claim o n).2.1) (s'.claim o n).1
      (Output.sameRoute_endEngine _ _ _))

theorem onlyVerdicts_rebind (e : EngineId) (n : Nat) (s : State) : OnlyVerdicts s (s.rebind e n) := by
  unfold State.rebind
  split
  · exact .refl s
  · exact onlyVerdicts_setEngine _ _ _
  · exact onlyVerdicts_activate _ _ _

theorem onlyVerdicts_refit (e : EngineId) (n : Nat) (s : State) : OnlyVerdicts s (s.refit e n) := by
  unfold State.refit
  split
  · exact (onlyVerdicts_rebind e n s).trans (onlyVerdicts_promoteKeys _)
  · exact .refl s

theorem onlyVerdicts_followOn (o : Screen) (left : Option EngineId) (s : State) :
    OnlyVerdicts s (s.followOn o left) := by
  unfold State.followOn
  split
  · exact onlyVerdicts_refit _ _ s
  · exact .refl s

theorem onlyVerdicts_take (x : Turn) (s : State) : OnlyVerdicts s (s.take x).1 := by
  cases x with
  | release e => exact onlyVerdicts_releaseIfUnheld e s
  | run o left => exact (onlyVerdicts_followOn o left s).trans (onlyVerdicts_verdict o _)

theorem onlyVerdicts_takeTurns (fuel : Nat) (turns : List Turn) (s : State) :
    OnlyVerdicts s (s.takeTurns fuel turns) := by
  induction fuel generalizing turns s with
  | zero => exact .refl s
  | succ n ih =>
    cases turns with
    | nil => exact .refl s
    | cons x xs => exact (onlyVerdicts_take x s).trans (ih _ _)

theorem onlyVerdicts_letGo (outs : List Screen) (s : State) : OnlyVerdicts s (s.letGo outs) := by
  unfold State.letGo
  induction outs generalizing s with
  | nil => exact .refl s
  | cons o os ih =>
    rw [List.foldl_cons]
    split
    · exact (onlyVerdicts_onOutput _ _ _ (Output.sameRoute_unhold _)).trans (ih _)
    · exact ih s

theorem onlyVerdicts_useOrder (matters : Bool) (s : State) : OnlyVerdicts s (s.useOrder matters) := by
  unfold State.useOrder
  split
  · exact onlyVerdicts_onChoices _ _
  · exact .refl s

/-- A report re-runs verdicts and does nothing else (R85). -/
theorem onlyVerdicts_rerun (outs : List Screen) (s : State) : OnlyVerdicts s (s.rerun outs) :=
  ((onlyVerdicts_useOrder _ _).trans (onlyVerdicts_letGo _ _)).trans (onlyVerdicts_takeTurns _ _ _)

theorem onlyVerdicts_rerunAll (s : State) : OnlyVerdicts s s.rerunAll := onlyVerdicts_rerun _ _

/-! ## Lapses -/

theorem onlyLapses_dropUnlock (w : Option Screen) (s : State)
    (h : ∃ u, s.unlockOf w = some u ∧ u.deferred = true) :
    OnlyLapses s (s.dropUnlock w) := by
  obtain ⟨u, hu, hd⟩ := h
  cases w with
  | none => exact ⟨{ Apart.refl s with }, rfl, .inr ⟨rfl, u, hu, hd⟩, fun _ => .refl _, rfl⟩
  | some o =>
    refine ⟨{ Apart.refl s with }, rfl, .refl _, fun p => ?_, rfl⟩
    by_cases hp : p = o
    · subst hp; exact .inr ⟨by simp [State.dropUnlock], u, hu, hd⟩
    · exact .inl (Four.get_set_other _ _ hp)

theorem onlyLapses_raiseLock (n : Nat) (s : State) : OnlyLapses s (s.raiseTimes .lock n) := by
  induction n generalizing s with
  | zero => exact .refl s
  | succ n ih =>
    have raised : OnlyLapses s (s.raise .lock) :=
      ⟨{ Apart.refl s with }, rfl, .refl _, fun _ => .refl _, rfl⟩
    exact raised.trans (ih (s.raise .lock))

theorem State.lapses_deferred {s : State} {concerned : Screen → Bool} {covers : List Screen} {u : Option Unlock}
    (h : s.lapses concerned covers u = true) : ∃ x, u = some x ∧ x.deferred = true := by
  unfold State.lapses at h
  split at h
  · exact ⟨_, rfl, by simp_all⟩
  · cases h

theorem State.lapsing_deferred {s : State} {concerned : Screen → Bool} {w : Option Screen}
    (h : w ∈ s.lapsing concerned) :
    ∃ u, s.unlockOf w = some u ∧ u.deferred = true := by
  unfold State.lapsing at h
  rcases List.mem_append.1 h with h | h
  · split at h
    · rename_i hl
      cases List.mem_singleton.1 h
      exact lapses_deferred hl
    · cases h
  · obtain ⟨o, ho, rfl⟩ := List.mem_map.1 h
    exact lapses_deferred (List.mem_filter.1 ho).2

theorem State.lapsing_nodup (s : State) (concerned : Screen → Bool) : (s.lapsing concerned).Nodup := by
  unfold State.lapsing
  have screens : ((allScreens.filter fun o => s.lapses concerned [o] (s.lock.screens.get o)).map
      (some : Screen → Option Screen)).Nodup :=
    ((by decide : allScreens.Nodup).filter _).map (Option.some_injective _)
  split
  · simpa using screens
  · simpa using screens

theorem onlyLapses_dropAll (ws : List (Option Screen)) (s : State) (hn : ws.Nodup)
    (h : ∀ w ∈ ws, ∃ u, s.unlockOf w = some u ∧ u.deferred = true) :
    OnlyLapses s (ws.foldl (fun s w => s.dropUnlock w) s) := by
  induction ws generalizing s with
  | nil => exact .refl s
  | cons w ws ih =>
    obtain ⟨hw, hn⟩ := List.nodup_cons.1 hn
    refine (onlyLapses_dropUnlock w s (h w (.head _))).trans (ih _ hn fun v hv => ?_)
    have hvw : v ≠ w := fun e => hw (e ▸ hv)
    have := h v (.tail _ hv)
    cases v with
    | none =>
      cases w with
      | none => exact absurd rfl hvw
      | some o => exact this
    | some p =>
      cases w with
      | none => exact this
      | some o =>
        have hpo : p ≠ o := fun e => hvw (by rw [e])
        simpa [State.unlockOf, State.dropUnlock, Four.get_set_other _ _ hpo] using this

/-- Judging the deferred lapses drops deferred unlocks, raises LOCK and runs verdicts, and does nothing else
(R110). -/
theorem onlyLapses_judgeLapses (s : State) (concerned : Screen → Bool) :
    OnlyLapses s (s.judgeLapses concerned) := by
  unfold State.judgeLapses
  dsimp only
  split
  · exact .refl s
  · exact ((onlyLapses_dropAll _ s (s.lapsing_nodup concerned) fun _ h => State.lapsing_deferred h).trans
      (onlyLapses_raiseLock _ _)).trans (onlyVerdicts_rerunAll _).lapses

theorem reran_rerun (outs : List Screen) (s : State) : Reran outs s (s.rerun outs) :=
  ⟨onlyVerdicts_rerun outs s, rfl⟩

theorem lapsedAndReran_rerun (concerned : Screen → Bool) (outs : List Screen) (s : State) :
    LapsedAndReran concerned outs s ((s.judgeLapses concerned).rerun outs) :=
  ⟨(onlyLapses_judgeLapses s concerned).trans (onlyVerdicts_rerun outs _).lapses, rfl⟩

end Sys2Proof.Machine
end

