-- ==== Sys2Proof/Laws/Commands.lean ====
section
/-! SUPPORT. What the shared operations of the commands can do, once each: occurring, the receipt of a message,
the beginning of a request, sending, writes in flight, closes, and what leaves the decoder alone. -/

namespace Sys2Proof.Machine

/-! ## Occurring -/

theorem occurs_powered {s : State} (hp : s.power ≠ .off) (t : Nat) (f : State → State) :
    occurs t f s = .next (f (s.atInstant t)) := by simp [occurs, hp]

theorem occurs_unpowered {s : State} (hp : s.power = .off) (t : Nat) (f : State → State) :
    occurs t f s = .next s := by simp [occurs, hp]

/-! ## The receipt of a message -/

theorem dispatch_accepted (k : MsgKind) (f : Message → State → State) (s : State) (m : Message)
    (h : s.decoder.accepted = some m) (hk : m.body.kind = k) :
    s.dispatch k f =
      let s' := f m (s.onDecoder fun d => { d with accepted := none })
      s'.judgeHanded s'.decoder.handed := by
  unfold State.dispatch
  simp [h, hk]

theorem recordIssue_at (t : Nat) (s : State) (sc : Scope) (issue : Nat) (body : MsgBody) :
    ((s.atInstant t).onDecoder fun d => { d with accepted := none }).recordIssue ⟨sc, issue, body⟩ =
      s.receiving sc issue body t := by
  unfold State.recordIssue State.receiving
  split <;> rfl

theorem countDrop_at (t : Nat) (s : State) :
    ((s.atInstant t).onDecoder fun d => { d with accepted := none }).countDrop = s.discarding t := rfl

/-- An owner that takes messages as they come. -/
theorem dispatch_receive {k : MsgKind} {f : MsgBody → State → State} (t : Nat) (s : State) (sc : Scope)
    (issue : Nat) (body : MsgBody) (ha : Awaits s sc issue body) (hk : body.kind = k) :
    (s.atInstant t).dispatch k (State.receive f) =
      (f body (s.receiving sc issue body t)).judgeHanded (f body (s.receiving sc issue body t)).decoder.handed := by
  rw [dispatch_accepted k _ (s.atInstant t) ⟨sc, issue, body⟩ ha.accepted hk]
  simp only [State.receive]
  rw [recordIssue_at]

/-- The Room Controller, not busy and with no message held. -/
theorem dispatch_receiveRoom {k : MsgKind} (t : Nat) (s : State) (sc : Scope) (issue : Nat) (body : MsgBody)
    (ha : Awaits s sc issue body) (hk : body.kind = k) (hs : s.roomSettled = true) :
    (s.atInstant t).dispatch k State.receiveRoom =
      ((s.receiving sc issue body t).takeRoomMessage body).judgeHanded
        ((s.receiving sc issue body t).takeRoomMessage body).decoder.handed := by
  rw [dispatch_accepted k _ (s.atInstant t) ⟨sc, issue, body⟩ ha.accepted hk]
  simp only [State.receiveRoom]
  rw [show ((s.atInstant t).onDecoder fun d => { d with accepted := none }).roomSettled = s.roomSettled from rfl,
    hs, recordIssue_at]
  rfl

/-- The Rating Lock, not busy and with no message waiting. -/
theorem dispatch_receiveLock {k : MsgKind} (t : Nat) (s : State) (sc : Scope) (issue : Nat) (body : MsgBody)
    (ha : Awaits s sc issue body) (hk : body.kind = k) (hs : s.lockSettled = true) :
    (s.atInstant t).dispatch k State.receiveLock =
      ((s.receiving sc issue body t).takeLockMessage body).judgeHanded
        ((s.receiving sc issue body t).takeLockMessage body).decoder.handed := by
  rw [dispatch_accepted k _ (s.atInstant t) ⟨sc, issue, body⟩ ha.accepted hk]
  simp only [State.receiveLock]
  rw [show ((s.atInstant t).onDecoder fun d => { d with accepted := none }).lockSettled = s.lockSettled from rfl,
    hs, recordIssue_at]
  rfl

/-! ## The beginning of a request -/

/-- A request that begins reaches its owner's checks. -/
theorem request_begins {kind : Nat} {group : Group} {r : Request} {f : List Byte → State → State} {s : State}
    (t : Nat) (h : Begins kind group s r) : (s.atInstant t).request kind group f = f r.body (s.atInstant t) := by
  have hh : ∃ rest, (s.atInstant t).port.intake = r :: rest := by
    have := h.head
    revert this
    change s.port.intake.head? = some r → ∃ rest, s.port.intake = r :: rest
    cases s.port.intake <;> simp
  obtain ⟨rest, hh⟩ := hh
  have e1 : (s.atInstant t).canBegin = true := h.free
  have e2 : (s.atInstant t).heldBack r.kind = false := h.notHeld
  have e3 : (s.atInstant t).modeTakes group = true := h.mode
  simp [State.request, State.beginRequest, hh, e1, e2, e3, h.ofKind, h.length]

/-- A request at the head, with the tests the Set Port makes of it. -/
theorem request_at_head (s : State) (kind : Nat) (group : Group) (f : List Byte → State → State) (r : Request)
    (hh : s.port.intake.head? = some r) (hk : r.kind.toNat = kind) :
    s.request kind group f =
      if s.canBegin && !s.heldBack r.kind then
        if s.modeTakes group = false then s.reply .mode []
        else if r.body.length ≠ requestLength r.body kind then s.reply .badArgument []
        else f r.body s
      else s := by
  unfold State.request State.beginRequest
  cases h : s.port.intake with
  | nil => rw [h] at hh; simp at hh
  | cons a l => rw [h] at hh; simp at hh; subst hh; simp [hk]

/-! ## Sending -/

theorem startSending_eq (s : State) :
    s.startSending = { s with port := { s.port with transmitter :=
      if s.port.transmitter = .idle ∧ s.port.lineBreak = false ∧ s.port.outbound ≠ [] then .reply
      else s.port.transmitter } } := by
  unfold State.startSending
  split <;> rfl

/-! ## The receiver -/

/-- A character that no gap precedes. -/
theorem arriveChar_open (c : Byte) (s : State) (h1 : s.port.opened = true) (h2 : s.port.lineBreak = false)
    (hg : s.gap = false) : s.arriveChar c = (s.onPort fun p => { p with lastCharAt := s.now }).takeChar c := by
  unfold State.arriveChar
  simp [h1, h2, hg]

/-! ## Writes and closes -/

theorem roomWriteInFlight_of {s : State} {w : RoomWrite} (t : Nat) (h : s.room.write = some ⟨w, true⟩) :
    (s.atInstant t).roomWriteInFlight = some w := by
  have : (s.atInstant t).room = s.room := rfl
  simp [State.roomWriteInFlight, this, h]

theorem roomSettled_idle {s : State} (hs : s.roomSettled = true) :
    s.room.write = none ∧ s.room.checkOut = none := by
  simp [State.roomSettled, State.roomBusy] at hs
  tauto

theorem moneyChanged_verdicts (s before : State) : OnlyVerdicts s (s.moneyChanged before) := by
  unfold State.moneyChanged
  split
  · exact .refl _
  · exact onlyVerdicts_rerun _ _

theorem beginClose_decoder (n : Nat) (cause : CloseCause) (s : State) :
    (s.beginClose n cause).decoder = s.decoder := by
  unfold State.beginClose
  repeat' split
  all_goals rfl

theorem advanceCheckOut_decoder (s : State) : s.advanceCheckOut.decoder = s.decoder := by
  unfold State.advanceCheckOut State.closeOldest
  repeat' split
  all_goals first | rfl | exact beginClose_decoder _ _ _

theorem onlyVerdicts_handed {a b : State} (h : OnlyVerdicts a b) : b.decoder.handed = a.decoder.handed := by
  rw [h.decoder]

theorem onlyLapses_handed {a b : State} (h : OnlyLapses a b) : b.decoder.handed = a.decoder.handed := by
  rw [h.decoder]

/-! ## Lists of the replies -/

theorem leBytes_length (width n : Nat) : (leBytes width n).length = width := by
  induction width generalizing n with
  | zero => rfl
  | succ w ih => simp [leBytes, ih]

/-- A list carries a prefix of its items, which fits, and as long a one as fits. -/
theorem fit_prefix (room : Nat) (items : List (List Byte)) :
    ∃ k ≤ items.length, fit room items = items.take k ∧ k = (fit room items).length ∧
      ∀ next, items[k]? = some next → room < (items.take k).flatten.length + next.length := by
  induction items generalizing room with
  | nil => exact ⟨0, by simp [fit]⟩
  | cons x xs ih =>
    unfold fit
    split
    · obtain ⟨k, hk, he, hl, hn⟩ := ih (room - x.length)
      refine ⟨k + 1, by simp; omega, by simp [he], by simp [← hl], ?_⟩
      intro next hx
      simp at hx
      have := hn next hx
      simp at this ⊢
      omega
    · refine ⟨0, by simp, by simp, by simp, ?_⟩
      intro next hx
      simp at hx
      subst hx
      simp
      omega

theorem fit_length (room : Nat) (items : List (List Byte)) : (fit room items).flatten.length ≤ room := by
  induction items generalizing room with
  | nil => simp [fit]
  | cons x xs ih =>
    unfold fit
    split
    · rename_i h
      have := ih (room - x.length)
      simp at this ⊢
      omega
    · simp

/-- Two lists carry a prefix each, which fit together, and of neither would a further item fit. -/
theorem fitBoth_prefix (room : Nat) (xs ys : List (List Byte)) :
    ∃ j ≤ xs.length, ∃ k ≤ ys.length, fitBoth room xs ys = (xs.take j, ys.take k) ∧
      (xs.take j).flatten.length + (ys.take k).flatten.length ≤ room ∧
      ∀ next, xs[j]? = some next ∨ ys[k]? = some next →
        room < (xs.take j).flatten.length + (ys.take k).flatten.length + next.length := by
  induction xs generalizing room ys with
  | nil =>
    obtain ⟨k, hk, he, _, hn⟩ := fit_prefix room ys
    have hl := fit_length room ys
    exact ⟨0, Nat.zero_le _, k, hk, by simp [fitBoth, he], by simpa [he] using hl, by simpa using hn⟩
  | cons x xs ih =>
    unfold fitBoth
    split
    case isFalse h =>
      obtain ⟨k, hk, he, _, hn⟩ := fit_prefix room ys
      have hl := fit_length room ys
      refine ⟨0, Nat.zero_le _, k, hk, by simp [he], by simpa [he] using hl, ?_⟩
      rintro next (hx | hy)
      · simp at hx ⊢; subst hx; omega
      · simpa using hn next hy
    case isTrue h =>
      cases ys with
      | nil =>
        obtain ⟨j, hj, he, _, hn⟩ := fit_prefix room (x :: xs)
        have hl := fit_length room (x :: xs)
        exact ⟨j, hj, 0, Nat.zero_le _, by simp [he], by simpa [he] using hl, by simpa using hn⟩
      | cons y ys =>
        simp only
        split
        case isTrue k =>
          obtain ⟨i, hi, j, hj, he, hl, hn⟩ := ih (room - x.length - y.length) ys
          refine ⟨i + 1, by simpa using hi, j + 1, by simpa using hj, by simp [he], ?_, ?_⟩
          · simp at hl ⊢; omega
          · intro next hx
            have := hn next (by simpa using hx)
            simp at this ⊢; omega
        case isFalse k =>
          obtain ⟨i, hi, he, _, hn⟩ := fit_prefix (room - x.length) xs
          have hl := fit_length (room - x.length) xs
          rw [he] at hl
          refine ⟨i + 1, by simpa using hi, 0, Nat.zero_le _, by simp [he], ?_, ?_⟩
          · simp at hl ⊢; omega
          · rintro next (hx | hy)
            · have := hn next (by simpa using hx)
              simp at this ⊢; omega
            · simp at hy ⊢; subst hy; omega

/-- The first item of each list is carried where the two fit (R185: asking again reaches every item). -/
theorem fitBoth_heads (room : Nat) (xs ys : List (List Byte))
    (h : ∀ x ∈ xs, ∀ y ∈ ys, x.length + y.length ≤ room) (hx : ∀ x ∈ xs, x.length ≤ room)
    (hy : ∀ y ∈ ys, y.length ≤ room) :
    (xs ≠ [] → (fitBoth room xs ys).1 ≠ []) ∧ (ys ≠ [] → (fitBoth room xs ys).2 ≠ []) := by
  cases xs with
  | nil =>
    refine ⟨fun k => absurd rfl k, fun _ => ?_⟩
    cases ys with
    | nil => contradiction
    | cons y ys => simp [fitBoth, fit, hy y (by simp)]
  | cons x xs =>
    have hx := hx x (by simp)
    cases ys with
    | nil => exact ⟨fun _ => by simp [fitBoth, fit, hx], fun k => absurd rfl k⟩
    | cons y ys =>
      have h := h x (by simp) y (by simp)
      have hy : y.length ≤ room - x.length := by omega
      simp [fitBoth, hx, hy]

end Sys2Proof.Machine
end

