-- ==== Sys2Proof/WellFormed.lean ====
section
/-! DEFINITION. The operands a command can carry: the ranges the manual gives them. The meanings take any
operand; this says which of them can be sent. -/

namespace Sys2Proof

namespace Instr

/-- A cell is 160 bytes (R19, R181). -/
def wholeCell (cell : List Byte) : Bool := cell.length == 160

/-- A cell command carries a cell whose kind byte is its own (R19, R181). -/
def cellOf (kind : Nat) (cell : List Byte) : Bool := wholeCell cell && Machine.field 3 1 cell == kind

/-- A service number is 1..4094 (R114). -/
def serviceOk (n : Nat) : Bool := decide (1 ≤ n ∧ n ≤ 4094)

/-- A title id is 1..65,535 (R117). -/
def titleOk (n : Nat) : Bool := decide (1 ≤ n ∧ n ≤ 65535)

/-- A key group is 0..15 (R50). -/
def groupOk (g : Nat) : Bool := decide (g ≤ 15)

/-- A reset serial is 1..65,535 (R49). -/
def serialOk (n : Nat) : Bool := decide (1 ≤ n ∧ n ≤ 65535)

/-- The characters of one frame: from 1 up to the 254 of the longest (R183). -/
def charsOk (chars : List Byte) : Bool := decide (1 ≤ chars.length ∧ chars.length ≤ 254)

/-- A bad length is one outside 2..250 (R159). -/
def badLengthOk (length : Byte) : Bool := decide (length.toNat < 2 ∨ 250 < length.toNat)

/-- The operands of a command are in the ranges the manual gives them. -/
def wellFormed : Instr → Bool
  | .frameReceived _ chars => charsOk chars
  | .mediaCell _ cell => cellOf 1 cell
  | .descriptorCell _ cell => cellOf 2 cell
  | .managementCell _ cell => cellOf 3 cell
  | .filler _ cell => wholeCell cell
  | .resetSerialWriteComplete _ serial _ => serialOk serial
  | .meterCloseComplete _ service => serviceOk service
  | .expiryWriteComplete _ title => titleOk title
  | .accessKeyInstallComplete _ group => groupOk group
  | .groupRevokeComplete _ group => groupOk group
  | .purchaseExpiry _ title => titleOk title
  | .blockAccrual _ service => serviceOk service
  | .previewAllowanceReached _ title => titleOk title
  | .noSignalDeadline _ service => serviceOk service
  | .stalenessDeadline _ service => serviceOk service
  | .rejoinExpiry _ service => serviceOk service
  | .badLength _ length => badLengthOk length
  | .powerOn _ _ _ => true
  | .startUpStage5 _ => true
  | .lineBreak _ _ => true
  | .lineBreakEnd _ => true
  | .frameGapTimeout _ => true
  | .frameTransmitted _ _ => true
  | .chargePresented _ => true
  | .status _ => true
  | .screenStatus _ => true
  | .lineupRead _ => true
  | .catalogueRead _ => true
  | .readEvents _ => true
  | .clearEvents _ => true
  | .setEventMask _ => true
  | .journalRead _ => true
  | .journalRewind _ => true
  | .journalMode _ => true
  | .settingsRead _ => true
  | .tune _ => true
  | .screenOff _ => true
  | .routeHold _ => true
  | .routeRelease _ => true
  | .relock _ => true
  | .quote _ => true
  | .buy _ => true
  | .cancel _ => true
  | .unlock _ => true
  | .setPin _ => true
  | .restartStreams _ => true
  | .settingsWrite _ => true
  | .provision _ => true
  | .fullReset _ => true
  | .unknownRequest _ => true
  | .checkIn _ => true
  | .checkOut _ => true
  | .setLimit _ => true
  | .serviceOpen _ => true
  | .serviceClose _ => true
  | .pinReset _ => true
  | .setCeiling _ => true
  | .bar _ => true
  | .grantTier _ => true
  | .revokeTier _ => true
  | .groupKey _ => true
  | .revokeGroup _ => true
  | .releaseCharges _ => true
  | .setTime _ => true
  | .lineup _ => true
  | .catalogue _ => true
  | .keyDelivery _ => true
  | .setPolicy _ => true
  | .setRates _ => true
  | .suspend _ => true
  | .resume _ => true
  | .lockdown _ => true
  | .fullResetMessage _ => true
  | .heldMessageTaken _ => true
  | .waitingMessageTaken _ => true
  | .keptReleaseBegin _ => true
  | .newFolioWriteComplete _ => true
  | .folioUpdateWriteComplete _ => true
  | .limitWriteComplete _ => true
  | .suspendWriteComplete _ => true
  | .resumeWriteComplete _ => true
  | .lockdownWriteComplete _ => true
  | .checkoutClearingComplete _ => true
  | .provisionWriteComplete _ => true
  | .ceilingWriteComplete _ => true
  | .barWriteComplete _ => true
  | .pinResetWriteComplete _ => true
  | .setPinWriteComplete _ => true
  | .pinFailureWriteComplete _ => true
  | .unlockWriteComplete _ => true
  | .lockoutClearWriteComplete _ => true
  | .buyWriteComplete _ => true
  | .cancelWriteComplete _ => true
  | .meterWriteComplete _ => true
  | .viewingWriteComplete _ => true
  | .policyWriteComplete _ => true
  | .ratesWriteComplete _ => true
  | .tierWriteComplete _ => true
  | .releaseWriteComplete _ => true
  | .presentationWriteComplete _ => true
  | .settingsWriteComplete _ => true
  | .tick _ => true
  | .dayBoundary _ => true
  | .frameBoundary _ => true
  | .noKeyDeadline _ _ => true
  | .warmUpEnd _ _ => true
  | .idleDeadline _ _ => true
  | .noTitleDeadline _ _ => true
  | .routeHoldDeadline _ => true
  | .presenceProbe _ _ _ => true
  | .unlockEndInstant _ _ => true
  | .lockoutDeadline _ => true
  | .maintenanceWindowEnd _ => true
  | .frameBegins _ => true
  | .powerLoss => true

end Instr

end Sys2Proof
end

