-- ==== Sys2Proof/Tests/Slice0.lean ====
section
/-! SUPPORT. Tests of single steps against the manual's worked figures and rules, and for each statement of
Obligations.lean that has hypotheses a witness: states and operands that meet them, clause by clause. -/

namespace Sys2Proof.Tests

open Sys2Proof Sys2Proof.Machine

/-! ## States to test on -/

/-- An occupied room 101 of group 3, folio 77, limit 50,000. -/
def record : RoomRecord := ⟨.occupied, some 77, none, 50000, 0, 0, false, false, false, 101, 3⟩

/-- The services of the hotel: 10 FREE, 20 FILM, 30 METERED, 40 TIER 5 and scrambled under group 2. -/
def services : List Service :=
  [⟨10, 1, .free, none, 2⟩, ⟨20, 2, .film, none, 3⟩, ⟨30, 3, .metered ⟨15, 450, 1200, 120⟩, none, 1⟩,
    ⟨40, 4, .tier 5, some 2, 0⟩]

/-- A programme record with a title. -/
def programme (n : Nat) (title : Option Nat) : Programme := ⟨n, title, none, none, none, 0, false, 2000⟩

/-- An output on a service that shows what was decided. -/
def onService (n : Nat) (x : OutState) : Output :=
  { Output.initial true with route := some n, decided := x, shown := x, shownService := some n }

/-- A hotel room in use: screens 1 to 3 on services 20, 40 and 30, screen 4 off. -/
def hotel : State :=
  { State.reset with
    time := ⟨5000, some ⟨100, 50000⟩, 6000, 15060, false⟩
    cur := { Retained.lost with
      room := record, unitKey := some 5, tiers := 32, rates := ⟨875, 2, 25⟩ }
    store := { Retained.lost with
      room := record, unitKey := some 5, tiers := 32, rates := ⟨875, 2, 25⟩ }
    cells := ⟨true, [programme 20 (some 500), programme 40 none, programme 30 none]⟩
    router := ⟨⟨onService 20 .tuning, onService 40 .tuning, onService 30 .tuning, Output.initial true⟩,
      none, false⟩
    billing := { Billing.initial with lineup := services, catalogue := [⟨500, 1599, 4, 24⟩] } }

/-- The hotel's room record changed, in use and in the store. -/
def roomIs (r : RoomRecord) (s : State) : State :=
  { s with cur := { s.cur with room := r }, store := { s.store with room := r } }

/-- The hotel with a maintenance window open. -/
def open' : State := { hotel with room := { Room.initial with windowEnd := some 9000 } }

/-- The hotel whose part has not finished start-up. -/
def starting : State := { hotel with power := .starting }

/-- A request waits at the head of the intake. -/
def asked (k : Byte) (body : List Byte) (s : State) : State :=
  { s with port := { s.port with intake := [⟨k, 7, body⟩] } }

/-- A message awaits its owner. -/
def told (body : MsgBody) (s : State) : State :=
  { s with decoder := { s.decoder with accepted := some ⟨.room, 1, body⟩ } }

/-- A write of the Room Controller is in flight. -/
def roomWrites (w : RoomWrite) (s : State) : State := { s with room := { s.room with write := some ⟨w, true⟩ } }

/-- A write of the Rating Lock is in flight. -/
def lockWrites (w : LockWrite) (s : State) : State := { s with lock := { s.lock with write := some w } }

/-- Writes wait their turn. -/
def writes (ws : List TurnWrite) (s : State) : State := { s with turns := ws }

/-- An open session on service 30. -/
def session (net : Nat) (idle : Bool) : Session :=
  ⟨30, 77, ⟨100, 49000⟩, 875, 1021, 901, 1, net, idle, if idle then some 6000 else none, none⟩

/-- The hotel with some sessions open, in use and in the store. -/
def metered (l : List Session) (s : State) : State :=
  { s with
    cur := { s.cur with meter := l, reserved := l.length }
    store := { s.store with meter := l, reserved := l.length } }

/-- A journal record of folio 77. -/
def charge (n presented : Nat) : ChargeRecord :=
  ⟨n, .purchase, 77, some 500, none, 1199, 105, 1304, ⟨100, 40000⟩, none, none, none, presented⟩

/-- The hotel with some journal records, in use and in the store. -/
def journalled (l : List ChargeRecord) (s : State) : State :=
  { s with
    cur := { s.cur with records := l, nextNumber := l.length + 1 }
    store := { s.store with records := l, nextNumber := l.length + 1 } }

/-- A purchase of title 500. -/
def purchase : Purchase := ⟨500, 77, ⟨100, 49900⟩, ⟨101, 49900⟩, 1199, 105, 1304, some 1, 0⟩

/-- The hotel with the purchase made. -/
def bought (s : State) : State :=
  { s with cur := { s.cur with purchases := [purchase] }, store := { s.store with purchases := [purchase] } }

/-- An engine of the hotel. -/
def withEngine (x : Engine) (s : State) : State := { s with pool := { s.pool with engines := ⟨x, .off, .off⟩ } }

/-- Every engine is bound, and service 41 waits. -/
def full (x : Engine) : State :=
  { hotel with pool := ⟨⟨x, .active 43 none none, .active 44 none none⟩, [⟨41, [2]⟩]⟩ }

/-- A cell of 160 bytes. -/
def cell (service kind scramble count : Byte) (payload : List Byte) : List Byte :=
  0xB3 :: service :: 0 :: kind :: scramble :: count :: 0 :: 0 :: (payload ++ List.replicate (152 - payload.length) 0)

/-- The state of a next outcome. -/
def after : Out → State
  | .next s => s
  | _ => State.reset

theorem begins_of (kind : Nat) (group : Group) (s : State) (r : Request)
    (h : (s.power != .off && s.port.intake.head? == some r && r.kind.toNat == kind && s.canBegin &&
      !s.heldBack r.kind && s.modeTakes group && r.body.length == requestLength r.body kind) = true) :
    Begins kind group s r := by
  simp only [Bool.and_eq_true, bne_iff_ne, beq_iff_eq, Bool.not_eq_true'] at h
  exact ⟨h.1.1.1.1.1.1, h.1.1.1.1.1.2, h.1.1.1.1.2, h.1.1.1.2, h.1.1.2, h.1.2, h.2⟩

theorem awaits_of (body : MsgBody) (s : State) (h : s.power ≠ .off) : Awaits (told body s) .room 1 body := ⟨h, rfl⟩


/-! ## Witnesses: chapters 1 to 3 -/

theorem witness_BusyOwnersHoldMessagesAndTakeThemInOrder :
    let busy := roomWrites .suspend hotel
    let full : State := { busy with room := { busy.room with held := List.replicate 4 .resume } }
    let locked := lockWrites (.bar true) hotel
    let lockFull : State := { locked with lock := { locked.lock with waiting := List.replicate 4 (.bar true) } }
    Awaits (told (.checkOut 77) busy) .room 1 (.checkOut 77) ∧ (told (.checkOut 77) busy).roomSettled = false ∧
    Awaits (told .suspend full) .room 1 .suspend ∧ (told .suspend full).roomSettled = false ∧
    Awaits (told (.bar true) locked) .room 1 (.bar true) ∧ (told (.bar true) locked).lockSettled = false ∧
    Awaits (told (.setCeiling 5) lockFull) .room 1 (.setCeiling 5) ∧
    (told (.setCeiling 5) lockFull).lockSettled = false ∧
    busy.roomBusy = true ∧ locked.lockBusy = true ∧
    ({ hotel with room := { hotel.room with held := [.resume] } } : State).roomBusy = false ∧
    ({ hotel with lock := { hotel.lock with waiting := [.bar true] } } : State).lockBusy = false :=
  ⟨awaits_of _ _ (by decide), rfl, awaits_of _ _ (by decide), rfl, awaits_of _ _ (by decide), rfl,
    awaits_of _ _ (by decide), rfl, rfl, rfl, rfl, rfl⟩

theorem witness_CheckInOpensOrUpdatesAFolio :
    let vacant := roomIs { record with state := .vacant, folio := none } hotel
    Awaits (told (.checkIn 0 0 none) hotel) .room 1 (.checkIn 0 0 none) ∧
    Awaits (told (.checkIn 77 0 none) hotel) .room 1 (.checkIn 77 0 none) ∧
    Awaits (told (.checkIn 78 9999999 (some 2580)) hotel) .room 1 (.checkIn 78 9999999 (some 2580)) ∧
    Awaits (told (.checkIn 78 0 none) vacant) .room 1 (.checkIn 78 0 none) ∧
    (told (.checkIn 78 0 none) hotel).roomSettled = true ∧ (told (.checkIn 78 0 none) vacant).roomSettled = true ∧
    (roomWrites (.newFolio 78 0 none 4) vacant).power ≠ .off ∧
    (roomWrites (.newFolio 78 0 none 4) vacant).room.write = some ⟨.newFolio 78 0 none 4, true⟩ :=
  ⟨awaits_of _ _ (by decide), awaits_of _ _ (by decide), awaits_of _ _ (by decide), awaits_of _ _ (by decide),
    rfl, rfl, by decide, rfl⟩

theorem witness_LimitStaysAtOrAboveTheSpendFloor :
    Awaits (told (.setLimit 77 0) hotel) .room 1 (.setLimit 77 0) ∧
    (told (.setLimit 77 0) hotel).roomSettled = true ∧
    (roomWrites (.limit 0) hotel).power ≠ .off ∧
    (roomWrites (.limit 0) hotel).room.write = some ⟨.limit 0, true⟩ ∧
    (roomWrites (.folioUpdate 0 (some 0)) hotel).room.write = some ⟨.folioUpdate 0 (some 0), true⟩ :=
  ⟨awaits_of _ _ (by decide), rfl, by decide, rfl, rfl⟩

theorem witness_CheckOutClosesSessionsThenClears :
    let leaving : State := { hotel with room := { hotel.room with checkOut := some none } }
    let s := metered [session 450 false] leaving
    let closing := metered [{ session 450 false with closing := some .checkOut }] leaving
    let suspended : State := { s with billing := { s.billing with suspendCloses := [30] } }
    Awaits (told (.checkOut 77) hotel) .room 1 (.checkOut 77) ∧ (told (.checkOut 77) hotel).roomSettled = true ∧
    leaving.room.checkOut.isSome = true ∧ leaving.room.write = none ∧ leaving.cur.meter = [] ∧
    (∃ x ∈ closing.cur.meter, x.closing = some .checkOut) ∧
    s.cur.meter = [] ++ session 450 false :: [] ∧ (∀ y ∈ s.cur.meter, y.closing ≠ some .checkOut) ∧
    (session 450 false).closing = none ∧ (session 450 false).service ∉ s.billing.suspendCloses ∧
    hotel.room.checkOut = none ∧ suspended.cur.meter ≠ [] ∧
    (∀ x ∈ suspended.cur.meter, x.closing ≠ none ∨ x.service ∈ suspended.billing.suspendCloses) ∧
    hotel.cur.room.folio = some 77 ∧ (∃ r ∈ (journalled [charge 1 1] leaving).cur.records, r.folio = 77) :=
  ⟨awaits_of _ _ (by decide), rfl, rfl, rfl, rfl, by decide, rfl, by decide, rfl, by decide, rfl, by decide, by decide,
    rfl, by decide⟩

theorem witness_ClearingWriteLeavesTheSettlingFolioOfR9 :
    let out (next : Option CheckIn) : State := { hotel with room := { hotel.room with checkOut := some next } }
    let asks := asked 0x12 [1, 0xF4, 1] hotel
    (roomWrites (.clearing (some 77)) (out none)).power ≠ .off ∧
    (roomWrites (.clearing (some 77)) (out none)).room.write = some ⟨.clearing (some 77), true⟩ ∧
    (roomWrites (.clearing none) (out none)).room.write = some ⟨.clearing none, true⟩ ∧
    (roomWrites (.clearing none) (out none)).room.checkOut = some none ∧
    (out (some ⟨78, 0, none⟩)).room.checkOut = some (some ⟨78, 0, none⟩) ∧
    (∃ r rest, asks.port.intake = r :: rest ∧ 0x11 ≤ r.kind.toNat ∧ r.kind.toNat ≤ 0x15 ∧
      asks.port.executing = false) ∧ hotel.port.intake = [] :=
  ⟨by decide, rfl, rfl, rfl, rfl, ⟨_, _, rfl, by decide, by decide, rfl⟩, rfl⟩

theorem witness_MaintenanceWindowOpensAndCloses :
    Awaits (told (.serviceOpen 240) hotel) .room 1 (.serviceOpen 240) ∧
    (told (.serviceOpen 240) hotel).roomSettled = true ∧ Awaits (told .serviceClose open') .room 1 .serviceClose ∧
    (told .serviceClose open').roomSettled = true ∧ open'.power ≠ .off ∧ open'.room.windowEnd = some 9000 :=
  ⟨awaits_of _ _ (by decide), rfl, awaits_of _ _ (by decide), rfl, by decide, rfl⟩

theorem witness_RoomFlagsChangeAtTheirWritesCompletion :
    Awaits (told .suspend hotel) .room 1 .suspend ∧ Awaits (told .resume hotel) .room 1 .resume ∧
    Awaits (told (.lockdown true) hotel) .room 1 (.lockdown true) ∧ (told .suspend hotel).roomSettled = true ∧
    (roomWrites .suspend hotel).power ≠ .off ∧ (roomWrites .suspend hotel).room.write = some ⟨.suspend, true⟩ ∧
    (roomWrites .resume hotel).room.write = some ⟨.resume, true⟩ ∧
    (roomWrites (.lockdown true) hotel).room.write = some ⟨.lockdown true, true⟩ ∧
    (let s := metered [session 450 false] hotel
     let s' : State := { s with billing := { s.billing with suspendCloses := [31, 30] } }
     (∀ x ∈ s'.cur.meter, x.closing ≠ some .suspend) ∧ s'.billing.suspendCloses = [31] ++ 30 :: [] ∧
     s'.session 31 = none ∧ s'.session 30 = some (session 450 false) ∧ (session 450 false).closing = none) :=
  ⟨awaits_of _ _ (by decide), awaits_of _ _ (by decide), awaits_of _ _ (by decide), rfl, by decide, rfl, rfl, rfl,
    by decide, rfl, rfl, rfl, rfl⟩

theorem witness_MediaCellIsCheckedThenPassedOrDropped :
    let clear := cell 20 1 0 15 []
    let scrambled := cell 40 1 2 0 []
    hotel.power ≠ .off ∧ hotel.cells.enabled = true ∧ wellFormedCell .media clear = true ∧
    cellService clear = 20 ∧ hotel.programme 20 = some (programme 20 (some 500)) ∧
    cellScramble clear = some .clear ∧ wellFormedCell .media scrambled = true ∧ cellService scrambled = 40 ∧
    hotel.programme 40 = some (programme 40 none) ∧ cellScramble scrambled = some (.scrambled .even) ∧
    State.reset.cells.programmes = [] ∧ wellFormedCell .descriptor clear = false :=
  ⟨by decide, rfl, by decide, by decide, rfl, rfl, by decide, by decide, rfl, rfl, rfl, by decide⟩

theorem witness_ProgrammeRecordFollowsDescriptorsAndDeadlines :
    let c := cell 20 2 0 0 [0xF4, 1, 9]
    hotel.power ≠ .off ∧ hotel.cells.enabled = true ∧ wellFormedCell .descriptor c = true ∧ cellService c = 20 ∧
    hotel.programme 20 = some (programme 20 (some 500)) ∧ (programme 20 (some 500)).noSignalAt = 2000 :=
  ⟨by decide, rfl, by decide, by decide, rfl, rfl⟩

/-- A management payload: header, body and check. -/
def payload (scope : Byte) (address : Nat) (kind : Byte) (issue : Nat) (body : List Byte) : List Byte :=
  let head := scope :: (leBytes 2 address ++ kind :: (leBytes 2 issue ++ byte body.length :: body))
  head ++ crcBytes head

/-- The cell of a management payload. -/
def managed (p : List Byte) : List Byte := 0xB3 :: 0xFF :: 0x0F :: 3 :: 0 :: 0 :: 0 :: 0 ::
  (p ++ List.replicate (152 - p.length) 0)

theorem witness_ManagementPayloadIsJudgedByTheSixTests :
    let bar := managed (payload 1 101 8 9 [1])
    let elsewhere := managed (payload 1 102 8 9 [1])
    let malformed := managed (payload 1 101 8 9 [2])
    let unscoped := managed (payload 2 3 8 9 [1])
    let unknown := managed (payload 1 101 0x18 9 [])
    let broken := managed (1 :: payload 1 101 8 9 [1])
    let repeated : State := { hotel with decoder := { hotel.decoder with issues := [⟨.bar, .room, 9⟩] } }
    hotel.power ≠ .off ∧ hotel.cells.enabled = true ∧ wellFormedCell .management bar = true ∧
    cellService bar = 4095 ∧ hotel.decoder.accepted = none ∧ hotel.decoder.handed = [] ∧
    msgCheckOk (cellPayload bar) = true ∧ msgKind (cellPayload bar) = some .bar ∧
    msgScope (cellPayload bar) = some .room ∧ msgAddress (cellPayload bar) = 101 ∧
    parseBody .bar (msgBody (cellPayload bar)) = some (.bar true) ∧
    msgCheckOk (cellPayload elsewhere) = true ∧ msgAddress (cellPayload elsewhere) = 102 ∧
    msgCheckOk (cellPayload malformed) = true ∧ parseBody .bar (msgBody (cellPayload malformed)) = none ∧
    msgCheckOk (cellPayload unscoped) = true ∧ msgScope (cellPayload unscoped) = some .group ∧
    msgCheckOk (cellPayload unknown) = true ∧ msgKind (cellPayload unknown) = none ∧
    msgCheckOk (cellPayload broken) = false ∧ repeated.issueOf .bar .room = some 9 ∧
    msgIssue (cellPayload bar) = 9 ∧ (told (.bar true) hotel).decoder.accepted ≠ none := by
  decide +kernel

/-- Bodies of the right length at the edges of each kind's ranges: what they carry. -/
theorem witness_WellFormedBodyHoldsValuesInRange :
    parseBody .checkIn (leBytes 4 77 ++ leBytes 4 10000000 ++ [1, 0x32, 0x35, 0x38, 0x30]) =
      some (.checkIn 77 9999999 (some 2580)) ∧
    parseBody .pinReset [1, 0x2F, 0x30, 0x39, 0x3A] = some (.pinReset none) ∧
    parseBody .pinReset [0, 0x30, 0x30, 0x30, 0x30] = some (.pinReset none) ∧
    parseBody .serviceOpen [0] = some (.serviceOpen 1) ∧ parseBody .serviceOpen [241] = some (.serviceOpen 240) ∧
    parseBody .lockdown [1] = some (.lockdown true) ∧ parseBody .grantTier [31] = some (.grantTier 31) ∧
    parseBody .lineup ([1, 11, 12, 1] ++ List.replicate 17 0) =
      some (.lineup 1 11 12 [⟨0, 0, 0, 0, 0, 0, 0, 0, 0, 0, 0⟩]) ∧
    parseBody .catalogue [1, 15, 16, 0] = some (.catalogue 1 15 16 []) ∧
    parseBody .setTime [0xFF, 0xFF, 0x7F, 0x51, 1, 0] = some (.setTime ⟨65535, 86399⟩) ∧
    parseBody .fullReset [1, 0] = some (.fullReset 1) ∧
    parseBody .keyDelivery ([15, 1, 200] ++ List.replicate 9 7) =
      some (.keyDelivery 15 .odd 200 (List.replicate 8 7) 7) ∧
    parseBody .setPolicy [0xFF, 0xFF, 255, 255, 255, 255, 255, 255, 1] =
      some (.setPolicy ⟨600, 10, 48, 240, 24, 23, 5, .lineupDefault⟩) ∧
    parseBody .setPolicy [0, 0, 0, 0, 0, 0, 0, 0, 0] = some (.setPolicy ⟨0, 0, 1, 15, 1, 0, 0, .descriptor⟩) ∧
    parseBody .setRates [0xFF, 0xFF, 255, 255] = some (.setRates ⟨2500, 9, 50⟩) := by
  decide +kernel

/-- Malformed bodies: one past each edge, and a wrong length. -/
theorem witness_malformed_bodies :
    (([(.checkIn, leBytes 8 77 ++ [2, 0, 0, 0, 0]), (.bar, [2]), (.grantTier, [32]), (.revokeGroup, [16]),
      (.keyDelivery, [0, 2] ++ List.replicate 10 0), (.setTime, [0, 0, 0x80, 0x51, 1, 0]), (.suspend, [0]),
      (.setPolicy, [0, 0, 0, 0, 0, 0, 0, 0, 2]), (.fullReset, [0, 0]), (.lineup, [1, 12, 12, 0]),
      (.lineup, [1, 0, 13, 0]), (.lineup, [1, 0, 1, 9] ++ List.replicate 153 0), (.lineup, [1, 0, 1, 1]),
      (.catalogue, [1, 0, 0, 0]), (.catalogue, [1, 0, 17, 0])] : List (MsgKind × List Byte)).all
        fun x => parseBody x.1 x.2 == none) = true := by
  decide +kernel

theorem witness_PolicyRatesAndTiersChangeAtTheirWritesCompletion :
    let p : Policy := { hotel.cur.policy with ceiling := 0 }
    let provisioning : State := { hotel with port := { hotel.port with provision := some ⟨102, 0, 1, true⟩ } }
    Awaits (told (.setPolicy p) hotel) .room 1 (.setPolicy p) ∧
    Awaits (told (.setRates ⟨2500, 9, 50⟩) hotel) .room 1 (.setRates ⟨2500, 9, 50⟩) ∧
    Awaits (told (.grantTier 31) provisioning) .room 1 (.grantTier 31) ∧
    Awaits (told (.revokeTier 0) hotel) .room 1 (.revokeTier 0) ∧
    hotel.power ≠ .off ∧
    ({ hotel with billing := { hotel.billing with policyWrite := some p } } : State).billing.policyWrite = some p ∧
    ({ hotel with billing := { hotel.billing with ratesWrite := some ⟨0, 0, 0⟩ } } : State).billing.ratesWrite =
      some ⟨0, 0, 0⟩ ∧
    ({ hotel with billing := { hotel.billing with tierWrite := some 1 } } : State).billing.tierWrite = some 1 :=
  ⟨awaits_of _ _ (by decide), awaits_of _ _ (by decide), awaits_of _ _ (by decide), awaits_of _ _ (by decide),
    by decide, rfl, rfl, rfl⟩

/-! ## Witnesses: chapters 4 to 7 -/

theorem witness_DescramblingFollowsTheKeystream : (List.replicate 152 (0xFF : Byte)).length = 152 ∧ 37 < 38 :=
  ⟨List.length_replicate, by decide⟩

theorem witness_AccessOperationsFollowKeyMessages :
    let wrapped := List.replicate 8 (0 : Byte)
    let none' : State := { hotel with cur := { hotel.cur with unitKey := none } }
    let installing : State := hotel.onKeyGroup 15 fun k => { k with inFlight := some (.install 9), next := some .revoke }
    let revoking : State := hotel.onKeyGroup 0 fun k => { k with inFlight := some .revoke }
    Awaits (told (.groupKey 15 wrapped 5) hotel) .room 1 (.groupKey 15 wrapped 5) ∧
    (told (.groupKey 15 wrapped 5) hotel).cur.unitKey = some 5 ∧
    Awaits (told (.groupKey 0 wrapped 5) none') .room 1 (.groupKey 0 wrapped 5) ∧
    (told (.groupKey 0 wrapped 5) none').cur.unitKey = none ∧
    Awaits (told (.revokeGroup 0) hotel) .room 1 (.revokeGroup 0) ∧
    installing.power ≠ .off ∧ (installing.keyGroup 15).inFlight = some (.install 9) ∧
    (revoking.keyGroup 0).inFlight = some .revoke :=
  ⟨awaits_of _ _ (by decide), rfl, awaits_of _ _ (by decide), rfl, awaits_of _ _ (by decide), by decide, rfl, rfl⟩

theorem witness_KeyDeliveryIsJudgedByEpochAndUse :
    let m := MsgBody.keyDelivery 2 .even 128 (List.replicate 8 0) 9
    let keyed : State := { hotel with cur := { hotel.cur with accessKeys := List.replicate 16 (some 9) } }
    let used : State := withEngine (.active 40 (some .even) none)
      (keyed.onKeyGroup 2 fun k => { k with even := ⟨some ⟨1, 1⟩, some ⟨1, 2⟩⟩ })
    Awaits (told m keyed) .room 1 m ∧ Awaits (told m used) .room 1 m ∧
    (told m used).parityInUse 2 .even = true ∧
    ((told m used).keyGroup 2).slot .even = ⟨some ⟨1, 1⟩, some ⟨1, 2⟩⟩ ∧
    (1 ≤ ((128 : Epoch).toNat + 256 - 1) % 256 ∧ ((128 : Epoch).toNat + 256 - 1) % 256 ≤ 127) :=
  ⟨awaits_of _ _ (by decide), awaits_of _ _ (by decide), by decide, rfl, by decide⟩

theorem witness_EngineRequestIsAnsweredByTheSixCases :
    let bound := withEngine (.active 40 none none) hotel
    let ready := withEngine (.ready none) hotel
    let free := withEngine (.warming none 9000) hotel
    let taken := full (.active 42 none none)
    (bound.engine 0).bound = some 40 ∧ ready.engine 0 = .ready none ∧ free.engine 0 = .warming none 9000 ∧
    hotel.engine 0 = .off ∧ (∀ e, (hotel.engine e).bound ≠ some 40) ∧
    (∀ e, taken.engine e ≠ .off ∧ (taken.engine e).bound ≠ some 40) :=
  ⟨rfl, rfl, rfl, rfl, by decide, by decide⟩

/-- An output on a service, with a claim on engine 1. -/
def called (n : Nat) : Output := { onService n .tuning with engine := some 0 }

theorem witness_ReleasedAndDueEnginesServeTheWaitList :
    let active := full (.active 42 none (some 6000))
    let warming := full (.warming (some 42) 6000)
    let targetless := withEngine (.warming none 6000) hotel
    let ready := withEngine (.ready (some 6000)) hotel
    (∀ o, (active.output o).engine ≠ some 0) ∧ active.engine 0 = .active 42 none (some 6000) ∧
    active.pool.wait = ⟨41, [2]⟩ :: [] ∧ warming.engine 0 = .warming (some 42) 6000 ∧ hotel.pool.wait = [] ∧
    targetless.engine 0 = .warming none 6000 ∧ ready.engine 0 = .ready (some 6000) ∧ active.power ≠ .off :=
  ⟨by decide, rfl, rfl, rfl, rfl, rfl, rfl, by decide⟩

/-- The hotel with screen 2 tuned away, to service 40, from what engine 1 serves. -/
def leaving (x : Engine) : State := (hotel.onOutput 1 fun _ => called 40).setEngine 0 x

theorem witness_ReleasedAndDueEngines_keys :
    let kept : KeySlot := ⟨some ⟨0, 1⟩, some ⟨7, 2⟩⟩
    let keyed : State := { withEngine (.active 40 (some .odd) none) hotel with
      keys := [.empty, .empty, ⟨none, none, kept, kept⟩] }
    keyed.engine 0 = .active 40 (some .odd) none ∧ keyed.service 40 = some ⟨40, 4, .tier 5, some 2, 0⟩ ∧
    keyed.keys[2]? = some ⟨none, none, kept, kept⟩ ∧ keyed.promoteKeys.keys[2]? =
      some ⟨none, none, ⟨some ⟨7, 2⟩, none⟩, kept⟩ ∧ keyed.parityInUse 2 .even = false ∧
    keyed.parityInUse 2 .odd = true := by decide +kernel

theorem witness_ReleasedAndDueEngines_moves :
    ∀ x ∈ [Engine.active 41 none none, .warming (some 41) 6000, .ready none],
    (leaving x).judge 1 = (leaving x, .passed 40 true .tier) ∧ ((leaving x).output 1).engine = some 0 ∧
    (leaving x).engine 0 ≠ .off ∧ (∀ p ≠ 1, ((leaving x).output p).engine ≠ some 0) ∧
    (∀ d, ((leaving x).engine d).bound ≠ some 40) ∧ (leaving x).pool.wait = [] := by decide +kernel

/-- The hotel with screen 2 tuned away from engine 3, WARMING for service 41, beside engine 1. -/
def leavingThird (x : Engine) : State :=
  ((hotel.onOutput 1 fun _ => { called 40 with engine := some 2 }).setEngine 2 (.warming (some 41) 6000)).setEngine 0 x

theorem witness_ReleasedAndDueEngines_warming :
    (leaving (.warming (some 41) 6000)).engine 0 = .warming (some 41) 6000 ∧
    (∀ d deadline, (leaving (.warming (some 41) 6000)).engine d ≠ .ready deadline) ∧
    (leavingThird (.ready none)).engine 0 = .ready none ∧
    (leavingThird (.warming none 5030)).engine 0 = .warming none 5030 ∧
    (∀ c deadline, (leavingThird (.warming none 5030)).engine c ≠ .ready deadline) ∧
    ∀ x ∈ [Engine.ready none, .warming none 5030],
    (leavingThird x).judge 1 = (leavingThird x, .passed 40 true .tier) ∧ ((leavingThird x).output 1).engine = some 2 ∧
    (leavingThird x).engine 2 = .warming (some 41) 6000 ∧ (∀ p ≠ 1, ((leavingThird x).output p).engine ≠ some 2) ∧
    (∀ d, ((leavingThird x).engine d).bound ≠ some 40) ∧ (leavingThird x).pool.wait = [] := by
  refine ⟨rfl, ?_, rfl, rfl, ?_, by decide +kernel⟩ <;> intro d deadline h <;> fin_cases d <;> cases h

theorem witness_VerdictTakesTheFirstCaseThatApplies :
    (hotel.output 0).present = true ∧ (hotel.output 0).route = some 20 ∧ hotel.service 20 = some ⟨20, 2, .film, none, 3⟩ ∧
    (hotel.output 3).route = none ∧ (hotel.output 1).route.bind hotel.service = some ⟨40, 4, .tier 5, some 2, 0⟩ ∧
    (called 10).route = some 10 ∧ (called 10).engine = some 0 ∧ hotel.service 10 = some ⟨10, 1, .free, none, 2⟩ ∧
    (hotel.output 0).engine = none ∧
    ((leaving (.active 40 none none)).output 1).engine = some 0 ∧
    ((leaving (.active 40 none none)).engine 0).bound = ((leaving (.active 40 none none)).output 1).route :=
  ⟨rfl, rfl, rfl, rfl, rfl, rfl, rfl, rfl, rfl, rfl, rfl⟩

theorem witness_LockAndAccessJudgeTheService :
    let four := metered [session 0 true, session 0 false, session 0 false, session 0 false] hotel
    hotel.service 20 = some ⟨20, 2, .film, none, 3⟩ ∧ hotel.service 11 = none ∧ hotel.titleOf 20 = some 500 ∧
    hotel.titleOf 40 = none ∧ hotel.cur.room.state = .occupied ∧ hotel.room.checkOut = none ∧
    hotel.time.property = some ⟨100, 50000⟩ ∧ hotel.session 30 = none ∧ hotel.cur.meter.length < 4 ∧
    (metered [session 450 false] hotel).session 30 = some (session 450 false) ∧ four.session 31 = none ∧
    4 ≤ four.cur.meter.length ∧ (session 0 true).idle = true ∧ State.reset.time.property = none ∧
    (let seen : State := { hotel with cur := { hotel.cur with previews := [⟨501, 9⟩, ⟨500, 60⟩] } }
     seen.cur.previews = [⟨501, 9⟩] ++ ⟨500, 60⟩ :: [] ∧ (∀ q ∈ [(⟨501, 9⟩ : Preview)], q.title ≠ 500) ∧
     ∀ p ∈ seen.cur.previews, p.title ≠ 502) := by
  refine ⟨rfl, rfl, rfl, rfl, rfl, rfl, rfl, rfl, by decide, rfl, rfl, by decide, rfl, rfl, rfl, by decide, by decide⟩

/-- The hotel with a hold that ends at 6,000, and a staged route for screen 1. -/
def holding (g : Staged) : State :=
  { hotel with router := { hotel.router with
    hold := some 6000
    outputs := { hotel.router.outputs with one := { hotel.router.outputs.one with staged := some g } } } }

theorem witness_TuneAndScreenOffAreStagedOrApplied :
    Begins 0x0C .everyMode (asked 0x0C [1, 1, 10, 0] hotel) ⟨0x0C, 7, [1, 1, 10, 0]⟩ ∧
    Begins 0x0C .everyMode (asked 0x0C [4, 0, 4, 0] hotel) ⟨0x0C, 7, [4, 0, 4, 0]⟩ ∧
    Begins 0x0C .everyMode (asked 0x0C [5, 1, 10, 0] hotel) ⟨0x0C, 7, [5, 1, 10, 0]⟩ ∧
    Begins 0x0C .everyMode (asked 0x0C [1, 1, 10, 0] (holding .off)) ⟨0x0C, 7, [1, 1, 10, 0]⟩ ∧
    Begins 0x0D .everyMode (asked 0x0D [1] hotel) ⟨0x0D, 7, [1]⟩ ∧
    Begins 0x0D .everyMode (asked 0x0D [4] hotel) ⟨0x0D, 7, [4]⟩ ∧
    Begins 0x0D .everyMode (asked 0x0D [0] hotel) ⟨0x0D, 7, [0]⟩ ∧
    Begins 0x0D .everyMode (asked 0x0D [1] (holding .off)) ⟨0x0D, 7, [1]⟩ ∧
    (hotel.output 0).route ≠ none ∧ (hotel.output 3).route = none ∧
    (hotel.cells.programmes.map (·.service)).Nodup :=
  ⟨begins_of _ _ _ _ rfl, begins_of _ _ _ _ rfl, begins_of _ _ _ _ rfl, begins_of _ _ _ _ rfl,
    begins_of _ _ _ _ rfl, begins_of _ _ _ _ rfl, begins_of _ _ _ _ rfl, begins_of _ _ _ _ rfl, by decide, rfl,
    by decide⟩

theorem witness_RouteHoldGathersRoutesUntilItEnds :
    Begins 0x0E .everyMode (asked 0x0E [] hotel) ⟨0x0E, 7, []⟩ ∧
    Begins 0x0F .everyMode (asked 0x0F [] hotel) ⟨0x0F, 7, []⟩ ∧
    Begins 0x0F .everyMode (asked 0x0F [] (holding .off)) ⟨0x0F, 7, []⟩ ∧
    (holding .off).power ≠ .off ∧ (holding .off).router.hold = some 6000 ∧
    ((holding .off).output 0).staged = some .off ∧ (∀ o, ((holding (.service 10)).output o).staged ≠ some .off) :=
  ⟨begins_of _ _ _ _ rfl, begins_of _ _ _ _ rfl, begins_of _ _ _ _ rfl, by decide, rfl, rfl, by decide⟩

theorem witness_FrameBoundaryShowsTheDecidedStates :
    hotel.power ≠ .off ∧ hotel.time.nextFrame = 15060 ∧ 3 * max hotel.time.now 5020 = hotel.time.nextFrame ∧
    3 * max hotel.time.now 5019 < hotel.time.nextFrame :=
  ⟨by decide, rfl, by decide, by decide⟩

/-- The hotel with a no-title deadline of screen 1 at 6,000. -/
def untitled : State := hotel.onOutput 0 fun x => { x with noTitleAt := some 6000 }

theorem witness_PresenceAndNoTitleFollowTheirProbesAndDeadlines :
    hotel.power ≠ .off ∧ (hotel.output 3).probedAt + hotel.cur.settings.probe * 1000 = 1000 ∧
    (untitled.output 0).noTitleAt = some 6000 :=
  ⟨by decide, rfl, rfl⟩

theorem witness_LockMessagesTakeEffectAtTheirWritesCompletion :
    let waits : State := { hotel with room := { hotel.room with write := some ⟨.clearing none, false⟩ } }
    Awaits (told (.pinReset (some 9999)) hotel) .room 1 (.pinReset (some 9999)) ∧
    Awaits (told (.setCeiling 5) hotel) .room 1 (.setCeiling 5) ∧ Awaits (told (.bar true) hotel) .room 1 (.bar true) ∧
    (told (.bar true) hotel).lockSettled = true ∧ hotel.power ≠ .off ∧
    (lockWrites (.ceiling 0) hotel).lock.write = some (.ceiling 0) ∧
    (lockWrites (.bar true) hotel).lock.write = some (.bar true) ∧
    (lockWrites (.pinReset none) hotel).lock.write = some (.pinReset none) ∧
    waits.lockBusy = false ∧ waits.room.write = some ⟨.clearing none, false⟩ ∧ hotel.lockBusy = false ∧
    hotel.room.write = none :=
  ⟨awaits_of _ _ (by decide), awaits_of _ _ (by decide), awaits_of _ _ (by decide), rfl, by decide, rfl, rfl, rfl,
    rfl, rfl, rfl, rfl⟩

/-- The hotel with a lock record. -/
def lockIs (l : LockRecord) (s : State) : State := { s with cur := { s.cur with lock := l } }

theorem witness_UnlockAndSetPinAreJudgedByTheirChecks :
    let unlock : List Byte := [0, 1, 0x32, 0x35, 0x38, 0x30]
    let setPin : List Byte := [1, 0x30, 0x30, 0x30, 0x30, 1, 0x39, 0x39, 0x39, 0x39]
    let s := lockIs ⟨3, false, some 2580, 0, 0, false⟩ hotel
    Begins 0x14 .guest (asked 0x14 unlock s) ⟨0x14, 7, unlock⟩ ∧
    Begins 0x14 .guest (asked 0x14 [0, 5, 0, 0, 0, 0] s) ⟨0x14, 7, [0, 5, 0, 0, 0, 0]⟩ ∧
    pinOfBytes (fieldBytes 2 4 unlock) = some 2580 ∧
    Begins 0x14 .guest (asked 0x14 unlock (lockIs ⟨3, false, some 0, 0, 1, true⟩ hotel)) ⟨0x14, 7, unlock⟩ ∧
    Begins 0x14 .guest (asked 0x14 unlock (lockIs ⟨3, false, some 2580, 2, 0, false⟩ hotel)) ⟨0x14, 7, unlock⟩ ∧
    Begins 0x15 .guest (asked 0x15 setPin s) ⟨0x15, 7, setPin⟩ ∧
    carriedPin (field 0 1 setPin) (fieldBytes 1 4 setPin) = some (some 0) ∧
    carriedPin (field 5 1 setPin) (fieldBytes 6 4 setPin) = some (some 9999) :=
  ⟨begins_of _ _ _ _ rfl, begins_of _ _ _ _ rfl, rfl, begins_of _ _ _ _ rfl, begins_of _ _ _ _ rfl,
    begins_of _ _ _ _ rfl, rfl, rfl⟩

theorem witness_PinWritesTakeEffectAtCompletion :
    hotel.power ≠ .off ∧ (lockWrites .failure hotel).lock.write = some .failure ∧
    (lockWrites (.setPin 0) hotel).lock.write = some (.setPin 0) ∧
    (lockWrites (.unlock false 4) hotel).lock.write = some (.unlock false 4) ∧
    (lockWrites .lockoutClear hotel).lock.write = some .lockoutClear :=
  ⟨by decide, rfl, rfl, rfl, rfl⟩

theorem witness_LockoutsAndUnlocksEnd :
    let s : State := { hotel with lock :=
      { hotel.lock with lockoutAt := some 6000, room := some ⟨6000, false⟩, screens := ⟨some ⟨6000, true⟩, none, none, none⟩ } }
    let above := lockIs ⟨3, false, none, 0, 0, false⟩ (hotel.onOutput 0 fun _ => onService 20 (.playing .purchase))
    (above.output 0).shown = .playing .purchase ∧ (above.output 0).shownService = some 20 ∧
    above.effectiveRating 20 = some 4 ∧ above.cur.lock.ceiling < 4 ∧
    s.power ≠ .off ∧ s.lock.lockoutAt = some 6000 ∧ s.lock.room = some ⟨6000, false⟩ ∧
    s.lock.screens.get 0 = some ⟨6000, true⟩ ∧ (s.output 0).shown ≠ .playing .free ∧ ¬ s.showsAbove 0 = true ∧
    (s.rerated hotel 0 = false ∧ (s.setLineup []).rerated s 0 = true) ∧
    Begins 0x10 .everyMode (asked 0x10 [0, 4] s) ⟨0x10, 7, [0, 4]⟩ ∧
    Begins 0x10 .everyMode (asked 0x10 [1, 0] s) ⟨0x10, 7, [1, 0]⟩ ∧
    Begins 0x10 .everyMode (asked 0x10 [2, 1] s) ⟨0x10, 7, [2, 1]⟩ :=
  ⟨rfl, rfl, rfl, by decide, by decide, rfl, rfl, rfl, by decide, by decide, by decide, begins_of _ _ _ _ rfl,
    begins_of _ _ _ _ rfl, begins_of _ _ _ _ rfl⟩

/-! ## Witnesses: chapters 8 to 10 -/

theorem witness_LineupPartsAreAssembledAndTheirRecordsAdded :
    let raw : RawService := ⟨4094, 999, 3, 0, 1, 15, 6, 61, 10000, 1000000, 601⟩
    let m := MsgBody.lineup 2 11 12 [raw]
    let held (a : Assembly) : State := { hotel with decoder := { hotel.decoder with lineup := a } }
    Awaits (told m hotel) .room 1 m ∧ Awaits (told m (held ⟨some 2, 12, [11]⟩)) .room 1 m ∧
    Awaits (told m (held ⟨some 2, 11, []⟩)) .room 1 m ∧ Awaits (told m (held ⟨some 2, 12, [0]⟩)) .room 1 m ∧
    hotel.decoder.lineup.version ≠ some 2 ∧
    raw.judge = some ⟨4094, 999, .metered ⟨60, 9999, 999999, 600⟩, some 15, 5⟩ ∧
    ({ raw with position := 1000 } : RawService).judge = none ∧ hotel.service 4094 = none ∧
    (∃ y ∈ hotel.billing.lineup, y.position = 4 ∧ y.number ≠ 4094) ∧
    hotel.billing.lineup.Pairwise (fun y z => y.number < z.number) :=
  ⟨awaits_of _ _ (by decide), awaits_of _ _ (by decide), awaits_of _ _ (by decide), awaits_of _ _ (by decide),
    by decide, by decide +kernel, by decide +kernel, rfl, by decide, by decide⟩

theorem witness_CataloguePartsAreAssembledAndTheirRecordsAdded :
    let m := MsgBody.catalogue 2 15 16 [⟨65535, 100000, 6, 49⟩]
    let held (a : Assembly) : State := { hotel with decoder := { hotel.decoder with catalogue := a } }
    let crowded : State := { hotel with billing := { hotel.billing with
      catalogue := (List.range 64).map fun i => ⟨i + 1, 0, 0, 0⟩ } }
    Awaits (told m hotel) .room 1 m ∧ Awaits (told m (held ⟨some 2, 16, [15]⟩)) .room 1 m ∧
    Awaits (told m (held ⟨some 2, 15, []⟩)) .room 1 m ∧ Awaits (told m (held ⟨some 2, 16, [0]⟩)) .room 1 m ∧
    hotel.decoder.catalogue.version ≠ some 2 ∧ hotel.titleRecord 500 = some ⟨500, 1599, 4, 24⟩ ∧
    64 ≤ crowded.billing.catalogue.length ∧ crowded.titleRecord 65 = none :=
  ⟨awaits_of _ _ (by decide), awaits_of _ _ (by decide), awaits_of _ _ (by decide), awaits_of _ _ (by decide),
    by decide, rfl, by decide +kernel, by decide +kernel⟩

theorem witness_QuoteAndBuyAreJudgedByTheSameChecks :
    let vacant := roomIs { record with state := .vacant } hotel
    Begins 0x11 .guest (asked 0x11 [1, 0xF4, 1] hotel) ⟨0x11, 7, [1, 0xF4, 1]⟩ ∧
    Begins 0x12 .guest (asked 0x12 [1, 0xF4, 1] hotel) ⟨0x12, 7, [1, 0xF4, 1]⟩ ∧
    Begins 0x12 .guest (asked 0x12 [1, 0xF4, 1] (bought hotel)) ⟨0x12, 7, [1, 0xF4, 1]⟩ ∧
    Begins 0x12 .guest (asked 0x12 [1, 0xF4, 1] vacant) ⟨0x12, 7, [1, 0xF4, 1]⟩ ∧
    Begins 0x12 .guest (asked 0x12 [4, 0xF4, 1] hotel) ⟨0x12, 7, [4, 0xF4, 1]⟩ ∧
    Begins 0x12 .guest (asked 0x12 [5, 0xF4, 1] hotel) ⟨0x12, 7, [5, 0xF4, 1]⟩ ∧
    hotel.locked 20 0 = false ∧ hotel.saleOutcome ⟨500, 1599, 4, 24⟩ = .ok :=
  ⟨begins_of _ _ _ _ rfl, begins_of _ _ _ _ rfl, begins_of _ _ _ _ rfl, begins_of _ _ _ _ rfl,
    begins_of _ _ _ _ rfl, begins_of _ _ _ _ rfl, by decide +kernel, by decide +kernel⟩

theorem witness_CancelIsJudgedByItsChecks :
    Begins 0x13 .guest (asked 0x13 [0xF4, 1] (bought hotel)) ⟨0x13, 7, [0xF4, 1]⟩ ∧
    Begins 0x13 .guest (asked 0x13 [0xF4, 1] hotel) ⟨0x13, 7, [0xF4, 1]⟩ ∧
    Begins 0x13 .guest (asked 0x13 [0, 0] hotel) ⟨0x13, 7, [0, 0]⟩ ∧
    (bought hotel).purchaseOf 500 = some purchase ∧ hotel.purchaseOf 500 = none ∧
    lateToCancel 300 ⟨100, 50199⟩ purchase = false ∧ lateToCancel 300 ⟨100, 50200⟩ purchase = true :=
  ⟨begins_of _ _ _ _ rfl, begins_of _ _ _ _ rfl, begins_of _ _ _ _ rfl, rfl, rfl, by decide +kernel, by decide +kernel⟩

theorem witness_SalesTakeEffectAtTheirWritesCompletion :
    hotel.power ≠ .off ∧
    takeBegun TurnWrite.isBuy false false (writes [.meter none, .buy { purchase with total := 0 }] hotel).turns = none ∧
    takeBegun TurnWrite.isBuy false false (writes [.buy purchase, .meter none] hotel).turns =
      some (.buy purchase, [.meter none]) ∧
    takeBegun TurnWrite.isCancel false false (writes [.cancel purchase ⟨100, 50000⟩] hotel).turns =
      some (.cancel purchase ⟨100, 50000⟩, []) :=
  ⟨by decide, rfl, rfl, rfl⟩

/-- The hotel with a preview of title 500 on screen 1 and the session of service 30 on screen 3, and 32 previews
of other titles. -/
def watching : State :=
  let s := metered [session 450 false] ((hotel.onOutput 0 fun _ => onService 20 (.playing .preview)).onOutput 2
    fun _ => onService 30 (.playing .metered))
  { s with cur := { s.cur with previews := (List.range 32).map fun i => ⟨i + 1, 180⟩ } }

theorem witness_TickCountsWhatIsShown :
    hotel.power ≠ .off ∧ max hotel.time.now 5999 < hotel.time.nextTick ∧ ¬ max hotel.time.now 6000 < hotel.time.nextTick ∧
    watching.power ≠ .off ∧ watching.cur.room.state = .occupied ∧ watching.room.checkOut = none ∧
    (watching.output 0).shown = .playing .preview ∧ (watching.output 0).route.bind watching.titleOf = some 500 ∧
    (∀ p ∈ watching.cur.previews, p.title ≠ 500) ∧ 32 ≤ watching.cur.previews.length ∧
    (watching.output 2).shown = .playing .metered ∧ (watching.output 2).shownService = some 30 ∧
    (∃ x ∈ watching.cur.meter, x.closing = none ∧ watching.meterTerms x.service ≠ none) :=
  ⟨by decide, by decide, by decide, by decide, rfl, rfl, rfl, rfl, by decide, by decide, rfl, rfl,
    session 450 false, by decide, rfl, by decide⟩

theorem witness_ExpiriesAndViewingCountsReachTheStore :
    let s : State := { bought hotel with billing := { hotel.billing with expired := [purchase] } }
    let w : State := { bought hotel with billing := { hotel.billing with expiryWrites := [purchase] } }
    let v : State := { bought hotel with billing := { hotel.billing with viewingWrite := true } }
    let a : State := { hotel with billing := { hotel.billing with allowanceReached := [500] } }
    s.power ≠ .off ∧ (s.billing.expired.find? fun q => q.title == 500) = some purchase ∧
    s.cancelling 500 = false ∧ s.cur.purchases.find? (·.same purchase) = some purchase ∧
    (writes [.cancel purchase ⟨100, 50000⟩] s).cancelling 500 = true ∧
    (w.billing.expiryWrites.find? fun q => q.title == 500) = some purchase ∧ v.billing.viewingWrite = true ∧
    500 ∈ a.billing.allowanceReached := by
  refine ⟨by decide, rfl, rfl, rfl, rfl, rfl, rfl, by decide⟩

theorem witness_PurchaseChargeFollowsPriceCountAndRates :
    let x : Title := ⟨500, 1599, 4, 24⟩
    let poor := roomIs { record with limit := 0 } hotel
    (99999 : Nat) ≤ 99999 ∧ (2500 : Nat) ≤ 2500 ∧ ({ purchase with total := 0 } : Purchase).total = 0 ∧
    Begins 0x11 .guest (asked 0x11 [1, 0xF4, 1] hotel) ⟨0x11, 7, [1, 0xF4, 1]⟩ ∧
    Begins 0x12 .guest (asked 0x12 [1, 0xF4, 1] hotel) ⟨0x12, 7, [1, 0xF4, 1]⟩ ∧
    (∃ time, (asked 0x12 [1, 0xF4, 1] hotel).checkSale 1 500 = .passed x time) ∧
    hotel.saleOutcome x = .ok ∧ hotel.withinLimit (hotel.saleTotal x) = true ∧
    Begins 0x12 .guest (asked 0x12 [1, 0xF4, 1] poor) ⟨0x12, 7, [1, 0xF4, 1]⟩ ∧
    (∃ time, (asked 0x12 [1, 0xF4, 1] poor).checkSale 1 500 = .passed x time) ∧
    poor.withinLimit (poor.saleTotal x) = false :=
  ⟨by decide, by decide, by decide, begins_of _ _ _ _ rfl, begins_of _ _ _ _ rfl, ⟨⟨100, 50000⟩, by decide +kernel⟩,
    by decide +kernel, by decide +kernel, begins_of _ _ _ _ rfl, ⟨⟨100, 50000⟩, by decide +kernel⟩,
    by decide +kernel⟩

theorem witness_DurableWritesTakeTheirTurns :
    takeBegun TurnWrite.isMeter false false [.release [1] [] false, .meter none] =
      some (.meter none, [.release [1] [] false]) ∧
    takeBegun TurnWrite.isPresentation false false [.release [1] [] false, .presentation []] = none ∧
    (∃ w ∈ (writes [.meter none] hotel).turns, w.isMeter = true) ∧
    (writes [.release [1] [] false, .meter none] hotel).turns = [.release [1] [] false] ++ .meter none :: [] ∧
    TurnWrite.isBilling (.release [1] [] false) = false ∧
    (writes [.meter (some ⟨[], [], 0⟩), .meter none] hotel).turnsAdvance.turns =
      [.meter (some ⟨[], [], 0⟩), .meter none] :=
  ⟨rfl, rfl, ⟨.meter none, by simp [writes], rfl⟩, rfl, rfl, rfl⟩

/-- The session's next block, at the accrual a tick left. -/
def accruing : State :=
  { metered [session 450 false] hotel with billing :=
    { hotel.billing with accruals := [⟨30, ⟨15, 450, 1200, 120⟩⟩] } }

theorem witness_BlockAccrualIsTestedAgainstTheLimit :
    accruing.power ≠ .off ∧
    accruing.billing.accruals.find? (fun a => a.service == 30) = some ⟨30, ⟨15, 450, 1200, 120⟩⟩ ∧
    accruing.session 30 = some (session 450 false) ∧ 1 * 60 * 15 < (session 450 false).chargeable ∧
    ¬ 1 * 60 * 15 < ({ session 450 false with chargeable := 900 } : Session).chargeable :=
  ⟨by decide, rfl, rfl, by decide, by decide⟩

theorem witness_MeterClosesAndWritesTakeEffectAtCompletion :
    let s := writes [.close 30 ⟨100, 50000⟩ true] (metered [session 450 false] hotel)
    let m := writes [.meter (some ⟨[], [], 0⟩)] hotel
    s.power ≠ .off ∧ s.session 30 = some (session 450 false) ∧ (session 450 false).closing = none ∧
    takeBegun (TurnWrite.closes 30) false false s.turns = some (.close 30 ⟨100, 50000⟩ true, []) ∧
    takeBegun TurnWrite.isMeter false false m.turns = some (.meter (some ⟨[], [], 0⟩), []) ∧
    (let closed : Session := { session 0 false with closing := some .startUp }
     (∀ x ∈ (metered [closed] starting).cur.meter, x.closing ≠ none) ∧ (∀ y ∈ [closed], y.closing ≠ none) ∧
     (metered [closed, session 450 false] starting).cur.meter = [closed] ++ session 450 false :: []) :=
  ⟨by decide, rfl, rfl, rfl, rfl, by decide, by decide, rfl⟩

theorem witness_RejoinExpiriesAndDaySpendAreKept :
    let idle := metered [session 450 true] hotel
    let spent (l : List DaySpend) : State := { hotel with cur := { hotel.cur with daySpend := l } }
    let eight := spent ((List.range 8).map fun i => ⟨i + 1, 1⟩)
    idle.power ≠ .off ∧ idle.session 30 = some (session 450 true) ∧ (session 450 true).rejoin = some 6000 ∧
    (∃ d ∈ (spent [⟨30, 1⟩]).cur.daySpend, d.service = 30) ∧ (∀ d ∈ eight.cur.daySpend, d.service ≠ 30) ∧
    8 ≤ eight.cur.daySpend.length ∧ eight.meterTerms 1 = none ∧ eight.session 1 = none ∧
    eight.cur.daySpend = [] ++ ⟨1, 1⟩ :: eight.cur.daySpend.tail :=
  ⟨by decide, rfl, rfl, by decide, by decide, by decide, rfl, rfl, rfl⟩

theorem witness_RecordAtTheCursorIsPresented :
    let s := journalled [charge 1 0, charge 2 255] hotel
    let push : State := { s with journal := { s.journal with push := true } }
    Begins 0x08 .everyMode (asked 0x08 [] s) ⟨0x08, 7, []⟩ ∧ Begins 0x08 .everyMode (asked 0x08 [] hotel) ⟨0x08, 7, []⟩ ∧
    Begins 0x09 .everyMode (asked 0x09 [] s) ⟨0x09, 7, []⟩ ∧ Begins 0x0A .everyMode (asked 0x0A [1] s) ⟨0x0A, 7, [1]⟩ ∧
    Begins 0x0A .everyMode (asked 0x0A [2] s) ⟨0x0A, 7, [2]⟩ ∧ push.power ≠ .off ∧ push.journal.push = true ∧
    push.port.opened = true ∧ push.port.lineBreak = false ∧ push.port.outbound = [] ∧
    push.port.transmitter = .idle ∧
    (push.cur.records.find? fun r => decide (push.journal.cursor ≤ r.number)) = some (charge 1 0) :=
  ⟨begins_of _ _ _ _ rfl, begins_of _ _ _ _ rfl, begins_of _ _ _ _ rfl, begins_of _ _ _ _ rfl,
    begins_of _ _ _ _ rfl, by decide, rfl, rfl, rfl, rfl, rfl, rfl⟩

theorem witness_ReleaseRemovesPresentedRecordsOnly :
    let s := journalled [charge 1 1, charge 2 0] hotel
    let kept : State := { s with journal := { s.journal with kept := some 1 } }
    let w := writes [.release [1] [(2, 0)] false, .presentation [(1, 1)]] s
    let p := writes [.presentation [(1, 1)]] s
    Awaits (told (.releaseCharges 1) s) .room 1 (.releaseCharges 1) ∧ kept.power ≠ .off ∧
    kept.journal.kept = some 1 ∧ s.cur.records = [charge 1 1] ++ [charge 2 0] ∧
    (∀ r ∈ [charge 1 1], r.number ≤ 1 ∧ 1 ≤ r.presented) ∧ (1 < (charge 2 0).number ∨ (charge 2 0).presented = 0) ∧
    takeBegun TurnWrite.isRelease false false w.turns =
      some (.release [1] [(2, 0)] false, [.presentation [(1, 1)]]) ∧
    takeBegun TurnWrite.isPresentation false false p.turns = some (.presentation [(1, 1)], []) :=
  ⟨awaits_of _ _ (by decide), by decide, rfl, rfl, by decide, by decide, rfl, rfl⟩

/-! ## Witnesses: chapters 11 and 12, and the part as a whole -/

theorem witness_FrameIsReceivedAsTheRequestItCarries :
    let crowded : State := { hotel with port := { hotel.port with intake := List.replicate 8 ⟨1, 0, [0, 0]⟩ } }
    hotel.power ≠ .off ∧ hotel.port.opened = true ∧ hotel.port.lineBreak = false ∧ hotel.port.receiver = .hunt ∧
    (⟨0xFF, 0xFF, List.replicate 248 0⟩ : Request).body.length ≤ 248 ∧ crowded.port.intake.length = 8 ∧
    crowded.port.receiver = .hunt ∧ [0, 0] ≠ crcBytes [2, 5, 7] ∧ (0xC4 : Byte) ≠ frameSync :=
  ⟨by decide, rfl, rfl, rfl, Nat.le_of_eq List.length_replicate, rfl, rfl, by decide +kernel, by decide⟩

/-- The hotel with a receiver in some state, its last character at 4,990. -/
def receiverIs (r : Receiver) : State := { hotel with port := { hotel.port with receiver := r, lastCharAt := 4990 } }

/-- A reply in the outbound queue, which the transmitter sends. -/
def replying (resets : Bool) : State :=
  { hotel with port := { hotel.port with outbound := [⟨[], false, resets⟩], transmitter := .reply } }

theorem witness_LineTroubleDiscardsFramesAndQueues :
    (receiverIs (.frame [])).power ≠ .off ∧ (receiverIs (.frame [])).port.opened = true ∧
    (receiverIs (.frame [])).port.lineBreak = false ∧ (receiverIs .hunt).port.receiver = .hunt ∧
    max (receiverIs (.frame [])).time.now 5010 ≤ (receiverIs (.frame [])).port.lastCharAt + 20 ∧
    (receiverIs (.frame [])).port.lastCharAt + 20 < max (receiverIs (.frame [])).time.now 5011 ∧
    ((1 : Byte).toNat < 2 ∨ 250 < (1 : Byte).toNat) ∧ ((251 : Byte).toNat < 2 ∨ 250 < (251 : Byte).toNat) ∧
    (∃ f ∈ (replying true).port.outbound, f.resets = true) :=
  ⟨by decide, rfl, rfl, rfl, by decide, by decide, by decide, by decide, ⟨[], false, true⟩, by decide, rfl⟩

theorem witness_RepliesAreQueuedAndSentInOrder :
    let pushing : State := { hotel with port := { hotel.port with transmitter := .push [] } }
    (asked 1 [0, 0] hotel).port.intake = ⟨1, 7, [0, 0]⟩ :: [] ∧ hotel.power ≠ .off ∧
    hotel.port.transmitter = .idle ∧ pushing.port.transmitter = .push [] ∧
    (replying false).port.transmitter = .reply ∧ (replying false).port.outbound = ⟨[], false, false⟩ :: [] ∧
    (replying true).port.outbound = ⟨[], false, true⟩ :: [] :=
  ⟨rfl, by decide, rfl, rfl, rfl, rfl, rfl⟩

theorem witness_RequestsBeginInTurnAndTheWrongAreRefused :
    let busy : State := { asked 0x19 [] hotel with port := { (asked 0x19 [] hotel).port with executing := true } }
    let leaving : State := { hotel with room := { hotel.room with checkOut := some none } }
    busy.power ≠ .off ∧ busy.port.intake.head? = some ⟨0x19, 7, []⟩ ∧ busy.canBegin = false ∧
    (asked 0x11 [1, 0xF4, 1] leaving).heldBack 0x11 = true ∧ (asked 0x19 [] hotel).canBegin = true ∧
    (asked 0x19 [] hotel).heldBack 0x19 = false ∧ (asked 0x19 [] hotel).modeTakes .service = false ∧
    (asked 0x01 [0] hotel).modeTakes .everyMode = true ∧ [0].length ≠ requestLength [0] 0x01 ∧
    (asked 0x1A [] hotel).port.intake.head? = some ⟨0x1A, 7, []⟩ ∧ 0x1A ≤ (0x1A : Byte).toNat ∧
    (asked 0 [] hotel).port.intake.head? = some ⟨0, 7, []⟩ :=
  ⟨by decide, rfl, rfl, rfl, rfl, rfl, rfl, rfl, by decide, rfl, by decide, rfl⟩

theorem witness_QueriesReportTheStateAndChangeNothing :
    Begins 0x01 .everyMode (asked 0x01 [7, 255] hotel) ⟨0x01, 7, [7, 255]⟩ ∧
    Begins 0x01 .everyMode (asked 0x01 [8, 0] hotel) ⟨0x01, 7, [8, 0]⟩ ∧
    Begins 0x02 .everyMode (asked 0x02 [] hotel) ⟨0x02, 7, []⟩ ∧
    Begins 0x03 .everyMode (asked 0x03 [0xFF, 0x0F] hotel) ⟨0x03, 7, [0xFF, 0x0F]⟩ ∧
    Begins 0x04 .everyMode (asked 0x04 [0, 0] hotel) ⟨0x04, 7, [0, 0]⟩ ∧
    Begins 0x0B .everyMode (asked 0x0B [] hotel) ⟨0x0B, 7, []⟩ ∧ 0 < (bought hotel).cur.purchases.length ∧
    31 < watching.cur.previews.length ∧ 0 < watching.cur.meter.length :=
  ⟨begins_of _ _ _ _ rfl, begins_of _ _ _ _ rfl, begins_of _ _ _ _ rfl, begins_of _ _ _ _ rfl,
    begins_of _ _ _ _ rfl, begins_of _ _ _ _ rfl, by decide, by decide, by decide⟩

theorem witness_EventsAreRaisedReadAndCleared :
    Begins 0x05 .everyMode (asked 0x05 [] hotel) ⟨0x05, 7, []⟩ ∧
    Begins 0x06 .everyMode (asked 0x06 [0xFF, 0] hotel) ⟨0x06, 7, [0xFF, 0]⟩ ∧
    Begins 0x06 .everyMode (asked 0x06 [0, 1] hotel) ⟨0x06, 7, [0, 1]⟩ ∧
    Begins 0x07 .everyMode (asked 0x07 [0x80, 0] hotel) ⟨0x07, 7, [0x80, 0]⟩ ∧
    Begins 0x07 .everyMode (asked 0x07 [0, 0x80] hotel) ⟨0x07, 7, [0, 0x80]⟩ ∧ field 1 1 [0xFF, (0 : Byte)] = 0 :=
  ⟨begins_of _ _ _ _ rfl, begins_of _ _ _ _ rfl, begins_of _ _ _ _ rfl, begins_of _ _ _ _ rfl,
    begins_of _ _ _ _ rfl, by decide⟩

theorem witness_SettingsAreClampedAndTakeEffectTogether :
    let body : List Byte := [4, 0, 1, 0, 1, 3, 0, 2, 56, 0, 3, 0, 0]
    let writing : State := { hotel with port := { hotel.port with settings := some ⟨.always, 4, 60, 1⟩ } }
    settingsOfBody body hotel.cur.settings = some ⟨.always, 4, 60, 1⟩ ∧
    settingsOfBody [1, 0, 2, 0] hotel.cur.settings = none ∧ settingsOfBody [0] hotel.cur.settings = none ∧
    Begins 0x17 .service (asked 0x17 body open') ⟨0x17, 7, body⟩ ∧
    Begins 0x17 .service (asked 0x17 [1, 4, 0, 0] open') ⟨0x17, 7, [1, 4, 0, 0]⟩ ∧
    Begins 0x17 .service (asked 0x17 [1, 0, 0, 0] open') ⟨0x17, 7, [1, 0, 0, 0]⟩ ∧
    writing.power ≠ .off ∧ writing.port.settings = some ⟨.always, 4, 60, 1⟩ :=
  ⟨by decide +kernel, by decide +kernel, by decide +kernel, begins_of _ _ _ _ rfl, begins_of _ _ _ _ rfl,
    begins_of _ _ _ _ rfl, by decide, rfl⟩

theorem witness_ProvisionNamesTheRoomAndClearsTheOldOne :
    let body (lo hi group : Byte) : List Byte := [lo, hi, group, 1, 2, 3, 4, 5, 6, 7, 8]
    let writing (p : Provision) : State := { hotel with port := { hotel.port with provision := some p } }
    Begins 0x18 .service (asked 0x18 (body 0x0F 0x27 63) open') ⟨0x18, 7, body 0x0F 0x27 63⟩ ∧
    Begins 0x18 .service (asked 0x18 (body 0x10 0x27 0) open') ⟨0x18, 7, body 0x10 0x27 0⟩ ∧
    Begins 0x18 .service (asked 0x18 (body 101 0 64) open') ⟨0x18, 7, body 101 0 64⟩ ∧
    Begins 0x18 .service (asked 0x18 (body 102 0 0) (journalled [charge 1 0] open')) ⟨0x18, 7, body 102 0 0⟩ ∧
    (writing ⟨9999, 63, 1, true⟩).power ≠ .off ∧
    (writing ⟨9999, 63, 1, true⟩).port.provision = some ⟨9999, 63, 1, true⟩ ∧
    (writing ⟨101, 4, 1, false⟩).port.provision = some ⟨101, 4, 1, false⟩ :=
  ⟨begins_of _ _ _ _ rfl, begins_of _ _ _ _ rfl, begins_of _ _ _ _ rfl, begins_of _ _ _ _ rfl, by decide, rfl, rfl⟩

theorem witness_SetTimeMovesPropertyTime :
    Awaits (told (.setTime ⟨101, 0⟩) (bought hotel)) .room 1 (.setTime ⟨101, 0⟩) ∧
    Awaits (told (.setTime ⟨0, 0⟩) State.reset) .room 1 (.setTime ⟨0, 0⟩) ∧
    Awaits (told (.setTime ⟨99, 0⟩) (bought hotel)) .room 1 (.setTime ⟨99, 0⟩) ∧
    hotel.time.property = some ⟨100, 50000⟩ ∧ 99 * 86400 + 0 < 100 * 86400 + 50000 :=
  ⟨awaits_of _ _ (by decide), awaits_of _ _ (by decide), awaits_of _ _ (by decide), rfl, by decide⟩

theorem witness_RestartStreamsRebuildsTheMediaPath :
    Begins 0x16 .restart (asked 0x16 [] hotel) ⟨0x16, 7, []⟩ := begins_of _ _ _ _ rfl

theorem witness_PowerOnRestoresTheStore :
    hotel.power ≠ .off ∧ (after (exec .powerLoss hotel)).power = .off ∧
    ∀ fastBaud maintenance boot, Instr.tick 0 ≠ .powerOn fastBaud maintenance boot :=
  ⟨by decide, rfl, fun _ _ _ h => by cases h⟩

theorem witness_StartUpEndsAndFullResetBeginsIt :
    let reset : State := { hotel with serials := [65535] }
    starting.power ≠ .off ∧ starting.power = .starting ∧ starting.cur.meter = [] ∧
    Begins 0x19 .service (asked 0x19 [] open') ⟨0x19, 7, []⟩ ∧
    (asked 0x19 [] open').port.intake = ⟨0x19, 7, []⟩ :: [] ∧
    Awaits (told (.fullReset 1) hotel) .room 1 (.fullReset 1) ∧ reset.power ≠ .off ∧ 65535 ∈ reset.serials :=
  ⟨by decide, rfl, rfl, begins_of _ _ _ _ rfl, rfl, awaits_of _ _ (by decide), by decide, by decide⟩

theorem witness_EveryStepKeepsTheMeterTablesLawful :
    let s := writes [.close 30 ⟨100, 50000⟩ true] (metered [session 450 false] hotel)
    let queued : State := { s with pending := [.meterCloseComplete 5100 30] }
    queued.MeterLaw ∧ ∃ s', step queued = .next s' := by
  refine ⟨⟨⟨by decide, by decide, rfl⟩, ⟨by decide, by decide, rfl⟩, ?_⟩, _, rfl⟩
  intro image h
  simp [writes] at h

theorem witness_EveryStepKeepsTheJournalAndTheRoomRecordLawful :
    let s : State := { journalled [charge 1 0] hotel with pending := [.tick 6000] }
    JournalLaw s.cur ∧ JournalLaw s.store ∧ s.RoomLaw ∧ ∃ s', step s = .next s' :=
  ⟨⟨by decide, by decide, by decide⟩, ⟨by decide, by decide, by decide⟩, ⟨rfl, by decide, by decide⟩, _, rfl⟩

theorem witness_EveryStepKeepsTheVolatileTablesLawful :
    let s : State := { hotel with pending := [.tick 6000] }
    LineupLaw s.billing.lineup ∧ CatalogueLaw s.billing.catalogue ∧ s.Bounds ∧ s.FilterLaw ∧
    ∃ s', step s = .next s' := by
  refine ⟨⟨by decide, by decide, by decide, by decide⟩, ⟨by decide, by decide⟩,
    ⟨by decide, by decide, by decide, by decide, fun c => by cases c <;> decide⟩, ⟨by decide, fun n => ?_⟩, _, rfl⟩
  have used : (∃ o, (hotel.output o).present = true ∧ (hotel.output o).route = some n) ↔
      n = 20 ∨ n = 40 ∨ n = 30 := by
    constructor
    · rintro ⟨o, -, h⟩
      fin_cases o <;> simp [hotel, State.output, Four.get, onService, Output.initial] at h <;> omega
    · rintro (rfl | rfl | rfl)
      · exact ⟨0, rfl, rfl⟩
      · exact ⟨1, rfl, rfl⟩
      · exact ⟨2, rfl, rfl⟩
  show (hotel.programme n).isSome = true ↔ ∃ o, (hotel.output o).present = true ∧ (hotel.output o).route = some n
  rw [used]
  show (List.find? (fun p => p.service == n)
    [programme 20 (some 500), programme 40 none, programme 30 none]).isSome = true ↔ _
  rw [List.find?_isSome]
  simp only [programme, List.mem_cons, List.not_mem_nil, or_false, exists_eq_or_imp, exists_eq_left, beq_iff_eq]
  omega

theorem witness_EveryStepKeepsEnginesAndPendingKeysLawful :
    let s : State := { full (.active 42 none none) with pending := [.tick 6000] }
    s.BindingLaw ∧ s.KeyLaw ∧ ∃ s', step s = .next s' := by
  refine ⟨⟨by decide, by decide, by decide, fun _ => by decide⟩, fun g p h => ?_, _, rfl⟩
  have e : (full (.active 42 none none)).keyGroup g = .empty := by
    simp only [State.keyGroup]
    show (List.replicate 16 KeyGroup.empty).getD g KeyGroup.empty = .empty
    simp only [List.getD_eq_getElem?_getD, List.getElem?_replicate]
    split <;> rfl
  have e' : ({ full (.active 42 none none) with pending := [.tick 6000] } : State).keyGroup g = .empty := e
  rw [e'] at h
  cases p <;> simp [KeyGroup.empty, KeyGroup.slot] at h

/-! ## Ill-formed commands, one for each check of WellFormed -/

theorem test_short_cell_is_ill_formed : (Instr.filler 0 [0xB3]).wellFormed = false := by decide

theorem test_cell_of_another_kind_is_ill_formed :
    (Instr.mediaCell 0 (cell 20 2 0 0 [])).wellFormed = false ∧ (Instr.mediaCell 0 (cell 20 1 0 0 [])).wellFormed = true := by
  decide +kernel

theorem test_management_service_is_no_metered_service :
    (Instr.meterCloseComplete 0 4095).wellFormed = false ∧ (Instr.rejoinExpiry 0 0).wellFormed = false := by decide

theorem test_title_0_is_ill_formed :
    (Instr.purchaseExpiry 0 0).wellFormed = false ∧ (Instr.expiryWriteComplete 0 65536).wellFormed = false := by decide

theorem test_group_16_is_ill_formed : (Instr.groupRevokeComplete 0 16).wellFormed = false := by decide

theorem test_serial_0_is_ill_formed :
    (Instr.resetSerialWriteComplete 0 0 ⟨true, true, true, true, true⟩).wellFormed = false := by decide

theorem test_no_characters_are_ill_formed : (Instr.frameReceived 0 []).wellFormed = false := by decide

theorem test_good_length_is_no_bad_length :
    (Instr.badLength 0 250).wellFormed = false ∧ (Instr.badLength 0 251).wellFormed = true := by decide

/-! ## Figures of the manual -/

/-- R180: the nine characters "123456789". -/
theorem test_crc_of_the_nine_digits :
    crc16 [0x31, 0x32, 0x33, 0x34, 0x35, 0x36, 0x37, 0x38, 0x39] = 0x29B1 := by decide +kernel

/-- The worked example of R52. -/
theorem test_unwrapping :
    unwrap (keyOfBytes [0x10, 0x20, 0x30, 0x40, 0x50, 0x60, 0x70, 0x80])
      [0x11, 0x22, 0x33, 0x44, 0x55, 0x66, 0x77, 0x88] = [1, 2, 3, 4, 5, 6, 7, 8] ∧
    checkByteOk [1, 2, 3, 4, 5, 6, 7, 8] 36 = true := by decide +kernel

/-- The worked case of R61. -/
theorem test_keystream_words :
    let key : Key := keyOfBytes [3, 0, 0, 0, 100, 0, 0, 0]
    keystreamWord key 10 2 0 = 497 ∧ keystreamWord key 10 2 1 = 500 ∧ keystreamWord key 10 2 37 = 608 ∧
    keystreamWord (keyOfBytes [0, 0, 0, 0x80, 0, 0, 0, 0]) 1 0 1 = 1 := by decide +kernel

/-- The clear word of R61's worked case. -/
theorem test_descrambled_word :
    (descramble (keyOfBytes [3, 0, 0, 0, 100, 0, 0, 0]) 10 2
      ([0x89, 0x57, 0x34, 0x12] ++ List.replicate 148 0)).take 4 = [0x78, 0x56, 0x34, 0x12] := by decide +kernel

/-- 9.7: P = 1,599, n = 2, B = 2, D = 25, R = 875. -/
theorem test_discounted_purchase :
    purchaseNet 1599 2 ⟨875, 2, 25⟩ = 1199 ∧ purchaseTax 1599 2 ⟨875, 2, 25⟩ = 105 ∧
    purchaseTotal 1599 2 ⟨875, 2, 25⟩ = 1304 := by decide

/-- 9.7: the blocks of a capped session, and the contributions to A. -/
theorem test_capped_blocks :
    let t : MeterTerms := ⟨15, 450, 1200, 120⟩
    blockNet t 0 = 450 ∧ blockNet t 900 = 300 ∧ blockNet t 1200 = 0 ∧
    ([450, 900, 1200].map fun n => n + taxOf n 875) = [489, 979, 1305] := by decide

/-- R108 and 7.9. -/
theorem test_lockout_durations :
    [1, 2, 3, 4, 255].map lockoutDuration = [900000, 1800000, 3600000, 7200000, 7200000] := by decide

/-- R172: property time passes midnight, and stays at its last second. -/
theorem test_property_time_runs :
    (⟨100, 86399⟩ : PTime).next = ⟨101, 0⟩ ∧ (⟨65535, 86399⟩ : PTime).next = ⟨65535, 86399⟩ := by decide

/-- R173: forward over the day start within a day, backward over it, and to another day. -/
theorem test_boundaries_of_a_set_time :
    setTimeBoundary 4 ⟨9, 14399⟩ ⟨9, 14400⟩ = true ∧ setTimeBoundary 4 ⟨9, 14400⟩ ⟨9, 14399⟩ = false ∧
    setTimeBoundary 4 ⟨9, 0⟩ ⟨8, 0⟩ = true := by decide

/-- R56: epoch 2 is newer than 254, and 128 steps on is not newer. -/
theorem test_epochs_wrap :
    newerThan 2 254 = true ∧ newerThan 254 2 = false ∧ newerThan 128 0 = false ∧ newerThan 127 0 = true := by decide

/-! ## Single steps -/

/-- R176, R178: a start-up that finds its store lost, taken to its end, leaves the state after reset. -/
theorem test_start_up_after_a_store_loss_is_reset :
    let boot : Boot := ⟨false, true, true, true, true⟩
    after (exec (.startUpStage5 0) (after (exec (.powerOn false false boot) hotel))) = State.reset := by decide +kernel

/-- R142, and the worked sequence of Chapter 12: the session found closes with its opened-at as the stamp. -/
theorem test_session_found_at_power_on_closes :
    let s : State := { metered [session 900 false] hotel with power := .off }
    let boot : Boot := ⟨true, true, true, true, true⟩
    let found := after (exec (.powerOn false true boot) s)
    let closed := after (exec (.meterCloseComplete 3 30) found)
    found.turns = [.close 30 ⟨100, 49000⟩ true] ∧ found.room.windowEnd = some 1800000 ∧
    closed.cur.room.spend = 979 ∧ closed.cur.reserved = 0 ∧ closed.port.events.charge = ⟨true, 1⟩ ∧
    closed.cur.records.map (·.total) = [979] := by decide +kernel

/-- 11.10, step 1: the ninth request is turned away with its tag and an intake count of 8. -/
theorem test_ninth_request_is_turned_away :
    let s : State := { hotel with port := { hotel.port with intake := List.replicate 8 ⟨1, 21, [0, 0]⟩ } }
    let s' := after (exec (.frameReceived 5001 (frameBytes 1 28 [0, 0])) s)
    s'.port.intake.length = 8 ∧ s'.port.events.link = ⟨true, 1⟩ ∧
    s'.port.outbound.map (·.bytes) = [frameBytes 0x81 28 [3, 8]] := by decide +kernel

/-- 11.10, step 2: a damaged frame. -/
theorem test_damaged_frame_is_answered_with_tag_0 :
    let s' := after (exec (.frameReceived 5001 [0xC5, 2, 5, 7, 0, 0]) hotel)
    s'.port.intake = [] ∧ s'.port.outbound.map (·.bytes) = [frameBytes 0xFF 0 [2, 0]] := by decide +kernel

/-- R134, 9.7: a BUY that completes. -/
theorem test_buy_completes :
    let alone : State := { hotel with router := { hotel.router with outputs :=
      { hotel.router.outputs with two := Output.initial true } } }
    let s := writes [.buy { purchase with number := none }] (asked 0x12 [1, 0xF4, 1] alone)
    let s' := after (exec (.buyWriteComplete 5003) s)
    s'.cur.room.spend = 1304 ∧ s'.cur.room.count = 1 ∧ s'.cur.records.map (·.number) = [1] ∧
    s'.cur.purchases = s'.store.purchases ∧ s'.store.records = s'.cur.records ∧ s'.port.intake = [] := by
  decide +kernel

/-- 7.9, at 20: the third failure in a row starts a lockout of 15 minutes. -/
theorem test_third_failure_locks_out :
    let s := lockWrites .failure (lockIs ⟨3, false, some 2580, 2, 0, false⟩ hotel)
    let s' := after (exec (.pinFailureWriteComplete 20000) s)
    s'.lock.lockoutAt = some 920000 ∧ s'.cur.lock.lockouts = 1 ∧ s'.cur.lock.failures = 0 ∧
    s'.port.events.lock = ⟨true, 1⟩ := by decide +kernel

/-- R81, R83: a FREE service with content plays, and a scrambled one claims an engine. -/
theorem test_verdicts :
    let free := (hotel.onOutput 3 fun x => { x with route := some 10, contentSeen := true }).rerun [3]
    let tier := hotel.rerun [1]
    (free.output 3).decided = .playing .free ∧ (tier.output 1).decided = .tuning ∧
    (tier.output 1).engine = some 0 ∧ tier.engine 0 = .warming (some 40) 5040 := by decide +kernel

/-- R136: a run of the verdict of a METERED service opens its session and reserves a slot. -/
theorem test_session_opens :
    let s := hotel.rerun [2]
    s.cur.meter.map (·.service) = [30] ∧ s.cur.reserved = 1 ∧ s.turns.length = 1 := by decide +kernel

/-- R122: the reply to a QUOTE of 1,599 with n = 2: 1,199 and 105, 1,304, and OK. -/
theorem test_quote_reply :
    let s := asked 0x11 [1, 0xF4, 1] (roomIs { record with count := 2 } hotel)
    (after (exec (.quote 5001) s)).port.outbound.map (·.bytes) =
      [frameBytes 0x91 7 ([0, 0, 0xF4, 1] ++ leBytes 4 1199 ++ leBytes 4 105 ++ leBytes 4 1304 ++
        leBytes 2 101 ++ leBytes 4 50000 ++ [0])] := by decide +kernel

/-- R86, R88: a boundary shows what was decided and raises ROUTE. -/
theorem test_boundary_shows :
    let s := hotel.onOutput 3 fun x => { x with decided := .absent }
    let s' := after (exec (.frameBoundary 5020) s)
    (s'.output 3).shown = .absent ∧ s'.port.events.route = ⟨true, 1⟩ ∧ s'.time.nextFrame = 15120 := by decide +kernel

/-- R32, R37, R41: a BAR cell to this room is accepted, taken by the Rating Lock, and begins its write. -/
theorem test_management_cell_reaches_its_owner :
    let s := after (exec (.managementCell 5001 (managed (payload 1 101 8 9 [1]))) hotel)
    let s' := after (exec (.bar 5001) s)
    s.decoder.accepted = some ⟨.room, 9, .bar true⟩ ∧ s'.lock.write = some (.bar true) ∧
    s'.decoder.issues = [⟨.bar, .room, 9⟩] ∧ s'.decoder.accepted = none := by decide +kernel

/-- R41: a payload handed over behind a message is judged when the message has been received. -/
theorem test_payload_behind_a_message_is_judged_in_its_turn :
    let s := told .suspend hotel
    let waits : State := { s with decoder := { s.decoder with
      handed := [1 :: payload 1 101 8 9 [1], payload 1 101 8 9 [1], []] } }
    let s' := after (exec (.suspend 5001) waits)
    s'.decoder.accepted = some ⟨.room, 9, .bar true⟩ ∧ s'.decoder.handed = [[]] ∧ s'.decoder.drops = 1 := by
  decide +kernel

/-- R28, R30, R110: a descriptor sets title and rating, and judges the deferred unlock of the screen on its
service, not that of another. -/
theorem test_descriptor_is_taken :
    let s : State := { hotel.onOutput 1 fun _ => Output.initial true with lock := { hotel.lock with
      screens := ⟨some ⟨4000, true⟩, some ⟨4000, true⟩, none, none⟩ } }
    let s' := after (exec (.descriptorCell 5001 (cell 20 2 0 0 [0xF5, 1, 2])) s)
    s'.titleOf 20 = some 501 ∧ s'.descriptorRatingOf 20 = some 2 ∧
    s'.lock.screens = ⟨none, some ⟨4000, true⟩, none, none⟩ ∧ s'.port.events.lock = ⟨true, 1⟩ := by decide +kernel

/-- R115, R83: a record that calls a service clear replaces the scrambled one, and the claim on it ends. -/
theorem test_service_called_clear_ends_the_claim :
    let s := (hotel.onOutput 1 fun _ => called 40).setEngine 0 (.active 40 none none)
    let raw : RawService := ⟨40, 4, 1, 5, 0, 0, 0, 0, 0, 0, 0⟩
    let s' := s.addService raw
    s'.service 40 = some ⟨40, 4, .tier 5, none, 0⟩ ∧ (s'.output 1).engine = none ∧
    s'.engine 0 = .ready (some 15000) := by decide +kernel

/-- R72, R91: one output that moves to another scrambled service keeps the engine it freed, though engine 2 is
READY or OFF; the order is free only where several outputs run. -/
theorem test_a_move_ends_on_the_freed_engine :
    let s := leaving (.active 41 none none)
    let idle := s.setEngine 1 (.ready (some 9000))
    s.orderMatters [1] = false ∧ s.orderMatters [1, 2] = true ∧
    s.turnOrder [1] = [.release 0, .run 1 (some 0)] ∧
    (s.take (.run 1 (some 0))).1.pool.engines = ⟨.active 40 none (some 5500), .off, .off⟩ ∧
    (idle.rerun [1]).pool.engines = ⟨.active 40 none (some 5500), .ready (some 9000), .off⟩ := by decide +kernel

/-- R69, R73, R91: an output that moves off engine 3, still WARMING, takes engine 1 where it is READY, in either order,
and keeps engine 3 where the others are OFF. -/
theorem test_a_move_off_a_warming_engine_is_answered_by_the_cases :
    let idle := leavingThird (.ready none)
    let alone := leavingThird .off
    ∀ l ∈ [[Turn.release 2, .run 1 (some 2)], [.run 1 (some 2), .release 2]],
    ((idle.letGo [1]).takeTurns 32 l).pool.engines = ⟨.active 40 none (some 5500), .off, .warming none 6000⟩ ∧
    ((alone.letGo [1]).takeTurns 32 l).pool.engines = ⟨.off, .off, .warming (some 40) 6000⟩ := by decide +kernel

/-- R120, R174: a purchase whose expires-at lies behind expires at a SET_TIME forward, and at none backward. -/
theorem test_set_time_backward_expires_no_purchase :
    let late : State := (bought hotel).onTime fun c => { c with property := some ⟨102, 0⟩ }
    let found (p : PTime) : Nat := (after (exec (.setTime 5000) (told (.setTime p) late))).billing.expired.length
    found ⟨102, 1⟩ = 1 ∧ found ⟨101, 86000⟩ = 0 := by decide +kernel

/-- R121, R128, R129, R137: a tick counts the preview in the place of the oldest record, and the session. -/
theorem test_tick_counts :
    let s' := after (exec (.tick 6000) watching)
    s'.cur.previews.map (·.title) = (List.range 31).map (· + 2) ++ [500] ∧ s'.billing.viewingWrite = true ∧
    s'.cur.meter.map (·.viewed) = [1022] ∧ s'.turns.length = 1 ∧ s'.time.property = some ⟨100, 50001⟩ := by
  decide +kernel

/-- R167, R185: 16 purchases and 16 previews share the room of a reply: 7 of 26 bytes, and 9 of 6 bytes. -/
theorem test_two_lists_share_a_reply :
    let both := fitBoth 236 (List.replicate 16 (List.replicate 26 0)) (List.replicate 16 (List.replicate 6 0))
    both.1.length = 7 ∧ both.2.length = 9 := by decide +kernel

/-- R165, R185: the pending flags take a byte each, here KEY and the PROPERTY that a store loss raised. -/
theorem test_read_events_reply :
    let s := (asked 0x05 [] hotel).raise .key
    (after (exec (.readEvents 5001) s)).port.outbound.map (·.bytes) =
      [frameBytes 0x85 7 ([0, 0] ++ [0, 0, 1, 0, 0, 1, 0, 0] ++ leBytes 8 0 ++ leBytes 4 1 ++ leBytes 8 0 ++ leBytes 4 1 ++
        leBytes 8 0 ++ [0, 0])] := by decide +kernel

/-- The table gives no row bits: no word spells a command. -/
theorem test_no_word_spells_a_command : decodeTableWord 8 1 = none ∧ decodeTableWord 0 0 = none := by decide

/-- R9, R12: the settling folio is chosen as stage 2 begins; a release of its records that completes behind that
leaves the choice. -/
theorem test_settling_folio_is_chosen_as_stage_2_begins :
    let leaving : State := { journalled [charge 1 1] (hotel.onOutputs fun _ => .initial true) with
      room := { hotel.room with checkOut := some none }, turns := [.release [1] [] false] }
    let released := after (exec (.releaseWriteComplete 5000) leaving.advanceCheckOut)
    let cleared := after (exec (.checkoutClearingComplete 5000) released)
    released.cur.records = [] ∧ released.room.write = some ⟨.clearing (some 77), true⟩ ∧
    cleared.cur.room.state = .settling ∧ cleared.cur.room.settling = some 77 ∧ cleared.cur.room.folio = none := by
  decide +kernel

end Sys2Proof.Tests
end

section
/-! PROOF. The laws of the journal, the room record and the volatile tables (R1, R4, R9, R21, R24, R39, R102,
R115, R117, R147, R161, R164) are kept by the shared operations: one lemma per operation. -/

namespace Sys2Proof.Machine

/-! ## What it is to keep the laws -/

/-- The laws of the journal, the room record and the volatile tables hold of `s'` where they hold of `s`. -/
structure Kept (s s' : State) : Prop where
  journal : JournalLaw s.cur ∧ JournalLaw s.store → JournalLaw s'.cur ∧ JournalLaw s'.store
  room : s.RoomLaw → s'.RoomLaw
  lineup : LineupLaw s.billing.lineup → LineupLaw s'.billing.lineup
  catalogue : CatalogueLaw s.billing.catalogue → CatalogueLaw s'.billing.catalogue
  bounds : s.Bounds → s'.Bounds
  filter : s.FilterLaw → s'.FilterLaw

/-- An operation on the fields the laws do not read is `{ Kept.refl s with }`: its laws are those of `s`. -/
theorem Kept.refl (s : State) : Kept s s := ⟨id, id, id, id, id, id⟩

theorem Kept.trans {a b c : State} (h : Kept a b) (k : Kept b c) : Kept a c where
  journal := k.journal ∘ h.journal
  room := k.room ∘ h.room
  lineup := k.lineup ∘ h.lineup
  catalogue := k.catalogue ∘ h.catalogue
  bounds := k.bounds ∘ h.bounds
  filter := k.filter ∘ h.filter

/-- `Kept.trans` from the last operation on, for an operation whose function the goal names. -/
theorem Kept.after {a b c : State} (k : Kept b c) (h : Kept a b) : Kept a c := h.trans k

theorem Kept.ite {c : Prop} [Decidable c] {s a b : State} (h : Kept s a) (k : Kept s b) :
    Kept s (if c then a else b) := by
  split
  · exact h
  · exact k

theorem Kept.foldl {f : State → α → State} (h : ∀ s x, Kept s (f s x)) (l : List α) (s : State) :
    Kept s (l.foldl f s) := by
  induction l generalizing s with
  | nil => exact .refl s
  | cons x xs ih => exact (h s x).trans (ih _)

/-! ## The journal law -/

theorem journalLaw_iff (r : Retained) :
    JournalLaw r ↔ 1 ≤ r.nextNumber ∧ (r.records.map (·.number)).Pairwise (· < ·) ∧
      ∀ n ∈ r.records.map (·.number), 1 ≤ n ∧ n < r.nextNumber := by
  simp [JournalLaw]

theorem journalLaw_of_sublist {r r' : Retained} (hn : r'.nextNumber = r.nextNumber)
    (hs : (r'.records.map (·.number)).Sublist (r.records.map (·.number))) (h : JournalLaw r) :
    JournalLaw r' := by
  obtain ⟨hone, hsorted, hbelow⟩ := (journalLaw_iff r).1 h
  exact (journalLaw_iff r').2
    ⟨by omega, hsorted.sublist hs, fun n m => by rw [hn]; exact hbelow n (hs.subset m)⟩

theorem journalLaw_append (x : ChargeRecord) {r : Retained} (h : JournalLaw r) :
    JournalLaw (r.append x) := by
  obtain ⟨hone, hsorted, hbelow⟩ := (journalLaw_iff r).1 h
  refine (journalLaw_iff _).2 ⟨by simp [Retained.append], ?_, ?_⟩
  · simp only [Retained.append, List.map_append, List.map_cons, List.map_nil]
    refine List.pairwise_append.2 ⟨hsorted, List.pairwise_singleton _ _, fun a ha b hb => ?_⟩
    rw [List.mem_singleton.1 hb]
    exact (hbelow a ha).2
  · intro n hn
    simp only [Retained.append, List.map_append, List.map_cons, List.map_nil, List.mem_append,
      List.mem_singleton] at hn ⊢
    rcases hn with hn | rfl
    · have := hbelow n hn
      omega
    · omega

theorem journalLaw_dropRecords (numbers : List Nat) {r : Retained} (h : JournalLaw r) :
    JournalLaw (r.dropRecords numbers) :=
  journalLaw_of_sublist (r := r) rfl (List.filter_sublist.map _) h

theorem numbers_presentIn (n : Nat) (l : List ChargeRecord) :
    (presentIn n l).map (·.number) = l.map (·.number) := by
  simp only [presentIn, List.map_map]
  refine List.map_congr_left fun r _ => ?_
  simp only [Function.comp]
  split <;> rfl

theorem numbers_withCounts (cs : List Count) (l : List ChargeRecord) :
    (withCounts cs l).map (·.number) = l.map (·.number) := by
  simp only [withCounts, List.map_map]
  refine List.map_congr_left fun r _ => ?_
  simp only [Function.comp]
  split <;> rfl

theorem journalLaw_withCounts (cs : List Count) {r : Retained} (h : JournalLaw r) :
    JournalLaw { r with records := withCounts cs r.records } :=
  journalLaw_of_sublist (r := r) rfl (by simp only [numbers_withCounts]; exact .refl _) h

theorem journalLaw_checked (intact : Bool) {r : Retained} (h : JournalLaw r) :
    JournalLaw (r.checked intact) := by
  unfold Retained.checked
  split
  · exact h
  · exact ⟨by decide, .nil, by simp [Retained.lost]⟩

/-! ## The room record -/

/-- A room record has a folio exactly while OCCUPIED, and a settling folio while SETTLING (R1, R9). -/
def RoomRecord.Lawful (x : RoomRecord) : Prop :=
  (x.state = .occupied ↔ x.folio.isSome = true) ∧ (x.state = .settling → x.settling.isSome = true)

theorem roomLaw_iff (s : State) : s.RoomLaw ↔ s.cur.room = s.store.room ∧ s.cur.room.Lawful := Iff.rfl

theorem lawful_newFolio (folio limit : Nat) (x : RoomRecord) : (x.newFolio folio limit).Lawful := by
  simp [RoomRecord.Lawful, RoomRecord.newFolio]

theorem lawful_departed (settling : Option Nat) (x : RoomRecord) : (x.departed settling).Lawful := by
  cases settling <;> simp [RoomRecord.Lawful, RoomRecord.departed]

theorem lawful_endSettling {x : RoomRecord} (h : x.Lawful) : x.endSettling.Lawful := by
  unfold RoomRecord.Lawful RoomRecord.endSettling at *
  cases hs : x.state <;> simp_all

theorem lawful_checked (intact : Bool) {r : Retained} (h : r.room.Lawful) :
    (r.checked intact).room.Lawful := by
  unfold Retained.checked
  split
  · exact h
  · simp [RoomRecord.Lawful, Retained.lost]

/-! ## Changes of the retained items -/

theorem kept_onCur (f : Retained → Retained) (s : State) (hroom : (f s.cur).room = s.cur.room)
    (hnext : (f s.cur).nextNumber = s.cur.nextNumber)
    (hnumbers : (f s.cur).records.map (·.number) = s.cur.records.map (·.number)) : Kept s (s.onCur f) :=
  { Kept.refl s with
    journal := fun h => ⟨journalLaw_of_sublist hnext (by rw [State.onCur_cur, hnumbers]) h.1, h.2⟩
    room := fun h => by
      rw [roomLaw_iff] at h ⊢
      simpa [hroom] using h }

theorem kept_onStore (f : Retained → Retained) (s : State) (hroom : (f s.store).room = s.store.room)
    (hjournal : JournalLaw s.store → JournalLaw (f s.store)) : Kept s (s.onStore f) :=
  { Kept.refl s with
    journal := fun h => ⟨h.1, hjournal h.2⟩
    room := fun h => by
      rw [roomLaw_iff] at h ⊢
      simpa [hroom] using h }

/-- A write that completes makes the same change of the room record in use and durably (R175). -/
theorem kept_durably (f : Retained → Retained) (g : RoomRecord → RoomRecord) (s : State)
    (hroom : ∀ r, (f r).room = g r.room) (hlawful : ∀ x, x.Lawful → (g x).Lawful)
    (hjournal : ∀ r, JournalLaw r → JournalLaw (f r)) : Kept s (s.durably f) :=
  { Kept.refl s with
    journal := fun h => ⟨hjournal _ h.1, hjournal _ h.2⟩
    room := fun h => by
      rw [roomLaw_iff] at h ⊢
      simp only [State.durably, State.onStore_cur, State.onCur_cur, State.onStore_store, State.onCur_store,
        hroom, h.1]
      exact ⟨trivial, hlawful _ (h.1 ▸ h.2)⟩ }

/-- A completed write that leaves the room record and the journal. -/
theorem kept_durably_same (f : Retained → Retained) (s : State) (hroom : ∀ r, (f r).room = r.room)
    (hjournal : ∀ r, JournalLaw r → JournalLaw (f r)) : Kept s (s.durably f) :=
  kept_durably f id s hroom (fun _ h => h) hjournal

/-- A completed write that changes the room record and leaves its state and folios. -/
theorem kept_durably_onRoom (f : RoomRecord → RoomRecord) (s : State)
    (h : ∀ x, x.Lawful → (f x).Lawful) : Kept s (s.durably (.onRoom f)) :=
  kept_durably _ f s (fun _ => rfl) h fun _ h => h

/-! ## Operations on fields no law reads -/

theorem kept_atInstant (t : Nat) (s : State) : Kept s (s.atInstant t) := { Kept.refl s with }
theorem kept_onTime (f : Timebase → Timebase) (s : State) : Kept s (s.onTime f) := { Kept.refl s with }
theorem kept_onKeys (f : List KeyGroup → List KeyGroup) (s : State) : Kept s (s.onKeys f) :=
  { Kept.refl s with }
theorem kept_onPool (f : Pool → Pool) (s : State) : Kept s (s.onPool f) := { Kept.refl s with }
theorem kept_onTurns (f : List TurnWrite → List TurnWrite) (s : State) : Kept s (s.onTurns f) :=
  { Kept.refl s with }
theorem kept_onJournal (f : Journal → Journal) (s : State) : Kept s (s.onJournal f) := { Kept.refl s with }
theorem kept_onSerials (f : List Nat → List Nat) (s : State) : Kept s (s.onSerials f) :=
  { Kept.refl s with }
theorem kept_onChoices (f : Nat → Nat) (s : State) : Kept s (s.onChoices f) := { Kept.refl s with }

/-! ## Operations on fields with a law of their own -/

theorem kept_onRoom (f : Room → Room) (s : State) (h : (f s.room).held = s.room.held) :
    Kept s (s.onRoom f) :=
  { Kept.refl s with
    bounds := fun ⟨hintake, hheld, hrest⟩ => ⟨hintake, by simpa [h] using hheld, hrest⟩ }

theorem kept_onLock (f : Lock → Lock) (s : State) (h : (f s.lock).waiting = s.lock.waiting) :
    Kept s (s.onLock f) :=
  { Kept.refl s with
    bounds := fun ⟨hintake, hheld, hwaiting, hrest⟩ =>
      ⟨hintake, hheld, by simpa [h] using hwaiting, hrest⟩ }

theorem kept_onDecoder (f : Decoder → Decoder) (s : State)
    (h : s.decoder.drops ≤ 65535 → (f s.decoder).drops ≤ 65535) : Kept s (s.onDecoder f) :=
  { Kept.refl s with
    bounds := fun ⟨hintake, hheld, hwaiting, hdrops, hrest⟩ =>
      ⟨hintake, hheld, hwaiting, h hdrops, hrest⟩ }

theorem kept_onPort (f : Port → Port) (s : State)
    (hintake : s.port.intake.length ≤ 8 → (f s.port).intake.length ≤ 8)
    (hevents : (f s.port).events = s.port.events) : Kept s (s.onPort f) :=
  { Kept.refl s with
    bounds := fun ⟨hi, hheld, hwaiting, hdrops, hcounts⟩ =>
      ⟨hintake hi, hheld, hwaiting, hdrops, by simpa [hevents] using hcounts⟩ }

theorem kept_onBilling (f : Billing → Billing) (s : State)
    (hlineup : (f s.billing).lineup = s.billing.lineup)
    (hcatalogue : (f s.billing).catalogue = s.billing.catalogue) : Kept s (s.onBilling f) :=
  { Kept.refl s with
    lineup := fun h => by simpa [hlineup] using h
    catalogue := fun h => by simpa [hcatalogue] using h }

theorem FilterLaw_congr {s s' : State}
    (hservices : s'.cells.programmes.map (·.service) = s.cells.programmes.map (·.service))
    (houtputs : ∀ o, (s'.output o).present = (s.output o).present ∧ (s'.output o).route = (s.output o).route)
    (h : s.FilterLaw) : s'.FilterLaw := by
  have hsome : ∀ (x : State) n,
      (x.programme n).isSome = true ↔ n ∈ x.cells.programmes.map (·.service) := by
    intro x n
    simp [State.programme, List.find?_isSome]
  obtain ⟨hnodup, hused⟩ := h
  refine ⟨by rw [hservices]; exact hnodup, fun n => ?_⟩
  rw [hsome, hservices, ← hsome, hused]
  simp only [houtputs]

theorem kept_onCells (f : CellFront → CellFront) (s : State)
    (h : (f s.cells).programmes.map (·.service) = s.cells.programmes.map (·.service)) :
    Kept s (s.onCells f) :=
  { Kept.refl s with filter := FilterLaw_congr h fun _ => ⟨rfl, rfl⟩ }

theorem kept_onRouter (f : Router → Router) (s : State)
    (h : ∀ o, ((f s.router).outputs.get o).present = (s.output o).present ∧
      ((f s.router).outputs.get o).route = (s.output o).route) : Kept s (s.onRouter f) :=
  { Kept.refl s with filter := FilterLaw_congr rfl h }

theorem kept_onOutputs (f : Output → Output) (s : State)
    (h : ∀ x, (f x).present = x.present ∧ (f x).route = x.route) : Kept s (s.onOutputs f) :=
  kept_onRouter _ s fun o => by
    simpa [State.output] using h (s.router.outputs.get o)

theorem kept_onOutput (o : Screen) (f : Output → Output) (s : State)
    (h : ∀ x, (f x).present = x.present ∧ (f x).route = x.route) : Kept s (s.onOutput o f) :=
  kept_onRouter _ s fun p => by
    by_cases hp : p = o
    · subst hp; simpa [State.output] using h (s.router.outputs.get p)
    · rw [Four.get_set_other _ _ hp]; exact ⟨rfl, rfl⟩

/-! ## The filter set (R21, R22) -/

theorem mem_distinct (n : Nat) (l : List Nat) : n ∈ distinct l ↔ n ∈ l := by
  induction l with
  | nil => rfl
  | cons x xs ih => by_cases h : n = x <;> simp [distinct, ih, h]

theorem nodup_distinct (l : List Nat) : (distinct l).Nodup := by
  induction l with
  | nil => exact .nil
  | cons x xs ih => exact List.nodup_cons.2 ⟨by simp, ih.filter _⟩

theorem mem_four (f : Four α) (x : α) : x ∈ f.toList ↔ ∃ o, f.get o = x := by
  constructor
  · intro h
    simp only [Four.toList, List.mem_cons, List.not_mem_nil, or_false] at h
    rcases h with rfl | rfl | rfl | rfl
    · exact ⟨0, rfl⟩
    · exact ⟨1, rfl⟩
    · exact ⟨2, rfl⟩
    · exact ⟨3, rfl⟩
  · rintro ⟨o, rfl⟩
    fin_cases o <;> simp [Four.toList, Four.get]

theorem mem_usedServices (s : State) (n : Nat) :
    n ∈ s.usedServices ↔ ∃ o, (s.output o).present = true ∧ (s.output o).route = some n := by
  simp only [State.usedServices, mem_distinct, List.mem_filterMap, mem_four, State.output]
  constructor
  · rintro ⟨_, ⟨o, rfl⟩, h⟩
    split at h
    · exact ⟨o, ‹_›, h⟩
    · cases h
  · rintro ⟨o, hp, hr⟩
    exact ⟨_, ⟨o, rfl⟩, by simp [hp, hr]⟩

/-- After the filter set is recomputed there is one programme record for each in-use service. -/
theorem filterLaw_refilter (s : State) (h : (s.cells.programmes.map (·.service)).Nodup) :
    s.refilter.FilterLaw := by
  have hservices : s.refilter.cells.programmes.map (·.service) =
      (s.cells.programmes.map (·.service)).filter (s.usedServices.contains ·) ++
        s.usedServices.filter fun n => !(s.cells.programmes.any fun p => p.service == n) := by
    simp [State.refilter, Programme.empty, List.filter_map, Function.comp_def]
  constructor
  · rw [hservices]
    refine List.nodup_append.2 ⟨h.filter _, (nodup_distinct _).filter _, ?_⟩
    rintro a ha b hb rfl
    obtain ⟨ha, _⟩ := List.mem_filter.1 ha
    obtain ⟨p, hp, rfl⟩ := List.mem_map.1 ha
    have := (List.mem_filter.1 hb).2
    simp at this
    exact this p hp rfl
  · intro n
    have hsome : (s.refilter.programme n).isSome = true ↔
        n ∈ s.refilter.cells.programmes.map (·.service) := by
      simp [State.programme, List.find?_isSome]
    rw [hsome, hservices]
    change _ ↔ ∃ o, (s.output o).present = true ∧ (s.output o).route = some n
    rw [← mem_usedServices]
    simp only [List.mem_append, List.mem_filter, List.contains_iff_mem, List.mem_map]
    constructor
    · rintro (⟨_, h⟩ | ⟨h, _⟩) <;> exact h
    · intro hu
      by_cases hn : ∃ p ∈ s.cells.programmes, p.service = n
      · exact .inl ⟨hn, hu⟩
      · exact .inr ⟨hu, by simpa using hn⟩

/-- Whatever changes the routes and the presence of outputs keeps the laws where the filter set is then
recomputed (R22). -/
theorem kept_refilter (f : Router → Router) (s : State) : Kept s (s.onRouter f).refilter :=
  { Kept.refl s with filter := fun h => filterLaw_refilter (s.onRouter f) h.1 }

theorem kept_onProgramme (n : Nat) (f : Programme → Programme) (s : State)
    (h : ∀ p, (f p).service = p.service) : Kept s (s.onProgramme n f) :=
  kept_onCells _ s (by
    simp only [List.map_map]
    refine List.map_congr_left fun p _ => ?_
    simp only [Function.comp]
    split
    · exact h p
    · rfl)

/-! ## Events (R164, R165) -/

@[simp] theorem Events.get_set_same (e : Events) (v : EventRecord) (c : EventClass) : (e.set v c).get c = v := by
  cases c <;> rfl

theorem Events.get_set_other (e : Events) (v : EventRecord) {c d : EventClass} (h : d ≠ c) :
    (e.set v c).get d = e.get d := by
  cases c <;> cases d <;> first | rfl | exact absurd rfl h

/-- No class has counted more than 255 raises. -/
def Events.Bounded (e : Events) : Prop := ∀ c, (e.get c).count ≤ 255

theorem Events.bounded_set {e : Events} (h : e.Bounded) {v : EventRecord} (hv : v.count ≤ 255)
    (c : EventClass) : (e.set v c).Bounded := by
  intro d
  by_cases hd : d = c
  · subst hd; simpa using hv
  · rw [Events.get_set_other _ _ hd]; exact h d

theorem EventRecord.raised_count (r : EventRecord) : r.raised.count ≤ 255 := Nat.min_le_right _ _

theorem Events.bounded_clearSet (set : BitVec 8) {e : Events} (h : e.Bounded) : (e.clearSet set).Bounded := by
  unfold Events.clearSet
  generalize EventClass.all = l
  induction l generalizing e with
  | nil => exact h
  | cons c cs ih =>
    rw [List.foldl_cons]
    split
    · exact ih (Events.bounded_set h (by decide) c)
    · exact ih h

/-- A change of the events that leaves no class above 255. -/
theorem kept_onEvents (f : Events → Events) (s : State) (h : ∀ e : Events, e.Bounded → (f e).Bounded) :
    Kept s (s.onPort fun p => { p with events := f p.events }) :=
  { Kept.refl s with
    bounds := fun ⟨hi, hheld, hwaiting, hdrops, hcounts⟩ => ⟨hi, hheld, hwaiting, hdrops, h _ hcounts⟩ }

theorem kept_raise (c : EventClass) (s : State) : Kept s (s.raise c) :=
  kept_onEvents (fun e => e.set (e.get c).raised c) s fun _ h =>
    Events.bounded_set h (EventRecord.raised_count _) c

theorem kept_raiseTimes (c : EventClass) (n : Nat) (s : State) : Kept s (s.raiseTimes c n) := by
  induction n generalizing s with
  | zero => exact .refl s
  | succ n ih => exact (kept_raise c s).trans (ih _)

theorem kept_clearEvents (set : BitVec 8) (s : State) : Kept s (s.clearEvents set) :=
  kept_onEvents (·.clearSet set) s fun _ h => Events.bounded_clearSet set h

end Sys2Proof.Machine
end

section
/-! PROOF. Runs of verdicts and lapses of unlocks keep the laws of the journal, the room record and the volatile
tables (R81 to R85, R110). -/

namespace Sys2Proof.Machine

/-! ## What runs of verdicts make of the Set Port -/

/-- The Set Port is as it was, but that JOURNAL HIGH may have been raised (R149); its count stays within its
bound. -/
def HighRan (s s' : State) : Prop := s'.port = s.port ∨ s'.port.events.journalHigh.count ≤ 255

theorem HighRan.trans {a b c : State} (h : HighRan a b) (k : HighRan b c) : HighRan a c := by
  rcases k with k | k
  · exact h.imp (k.trans ·) fun h => by rwa [k]
  · exact .inr k

theorem port_holdAll (e : EngineId) (outs : List Screen) (s : State) :
    (s.holdAll e outs).port = s.port := by
  unfold State.holdAll
  induction outs generalizing s with
  | nil => rfl
  | cons o os ih => exact ih _

theorem port_freeEngine (e : EngineId) (s : State) : (s.freeEngine e).1.port = s.port := by
  unfold State.freeEngine
  split <;> split <;> first | rfl | exact port_holdAll _ _ _

theorem port_releaseIfUnheld (e : EngineId) (s : State) : (s.releaseIfUnheld e).1.port = s.port := by
  unfold State.releaseIfUnheld
  split
  · exact port_freeEngine e s
  · rfl

theorem port_endClaim (o : Screen) (s : State) : (s.endClaim o).1.port = s.port := by
  unfold State.endClaim
  split
  · rfl
  · exact port_releaseIfUnheld _ _

theorem port_obtainEngine (o : Screen) (n : Nat) (s : State) : (s.obtainEngine o n).port = s.port := by
  unfold State.obtainEngine
  repeat' split
  all_goals rfl

theorem port_claim (o : Screen) (n : Nat) (s : State) : (s.claim o n).1.port = s.port := by
  have ended : (s.endOtherClaim o n).1.port = s.port := by
    unfold State.endOtherClaim
    split
    · rfl
    · exact port_endClaim o s
  exact (port_obtainEngine o n _).trans ended

theorem port_followOn (o : Screen) (left : Option EngineId) (s : State) :
    (s.followOn o left).port = s.port := by
  unfold State.followOn State.refit State.rebind
  repeat' split
  all_goals rfl

theorem port_letGo (outs : List Screen) (s : State) : (s.letGo outs).port = s.port := by
  unfold State.letGo
  induction outs generalizing s with
  | nil => rfl
  | cons o os ih =>
    rw [List.foldl_cons, ih]
    split <;> rfl

theorem port_useOrder (matters : Bool) (s : State) : (s.useOrder matters).port = s.port := by
  unfold State.useOrder
  split <;> rfl

theorem port_meterChanged (s : State) : s.meterChanged.port = s.port := by
  unfold State.meterChanged
  split <;> rfl

theorem port_beginClose (n : Nat) (cause : CloseCause) (s : State) : (s.beginClose n cause).port = s.port := by
  unfold State.beginClose
  repeat' split
  all_goals rfl

theorem highRan_occupancyRose (s : State) : HighRan s s.occupancyRose := by
  unfold State.occupancyRose
  split
  · exact .inr (EventRecord.raised_count _)
  · exact .inl rfl

theorem highRan_openSession (n : Nat) (time : PTime) (s : State) : HighRan s (s.openSession n time) := by
  unfold State.openSession
  dsimp only
  refine HighRan.trans ?_ (.inl (port_meterChanged _))
  exact highRan_occupancyRose (s.onCur _)

theorem highRan_askMeter (n : Nat) (terms : MeterTerms) (time : PTime) (s : State) :
    HighRan s (s.askMeter n terms time).1 := by
  unfold State.askMeter
  split
  · split <;> exact .inl rfl
  split
  · unfold State.closeOldest
    repeat' split
    all_goals first | exact .inl rfl | exact .inl (port_beginClose _ _ _)
  split
  · exact .inl rfl
  split
  · exact highRan_openSession n time s
  · exact .inl rfl

theorem highRan_judge (o : Screen) (s : State) : HighRan s (s.judge o).1 := by
  unfold State.judge State.access
  repeat' split
  all_goals first | exact .inl rfl | exact highRan_askMeter _ _ _ _

theorem highRan_verdict (o : Screen) (s : State) : HighRan s (s.verdict o).1 := by
  have judged := highRan_judge o s
  unfold State.verdict
  split <;> rename_i heq <;> rw [heq] at judged
  · exact judged.trans (.inl (port_endClaim o _))
  · exact judged.trans (.inl (port_endClaim o _))
  · exact judged.trans (.inl (port_endClaim o _))
  · exact judged.trans (.inl (port_claim o _ _))

theorem highRan_take (x : Turn) (s : State) : HighRan s (s.take x).1 := by
  cases x with
  | release e => exact .inl (port_releaseIfUnheld e s)
  | run o left => exact HighRan.trans (.inl (port_followOn o left s)) (highRan_verdict o _)

theorem highRan_takeTurns (fuel : Nat) (turns : List Turn) (s : State) :
    HighRan s (s.takeTurns fuel turns) := by
  induction fuel generalizing turns s with
  | zero => exact .inl rfl
  | succ n ih =>
    cases turns with
    | nil => exact .inl rfl
    | cons x xs => exact (highRan_take x s).trans (ih _ _)

theorem highRan_rerun (outs : List Screen) (s : State) : HighRan s (s.rerun outs) :=
  HighRan.trans (.inl ((port_letGo _ _).trans (port_useOrder _ _))) (highRan_takeTurns _ _ _)

/-! ## Runs of verdicts keep the laws -/

theorem OnlyVerdicts.bounds {s s' : State} (h : OnlyVerdicts s s') (k : HighRan s s') (b : s.Bounds) :
    s'.Bounds := by
  obtain ⟨hintake, hheld, hwaiting, hdrops, hcounts⟩ := b
  refine ⟨by rw [h.port]; exact hintake, by rwa [h.room], by rwa [h.lock], by rwa [h.decoder], fun c => ?_⟩
  have hhigh : s'.port.events.journalHigh.count ≤ 255 := by
    rcases k with k | k
    · rw [k]; exact hcounts .journalHigh
    · exact k
  by_cases hc : c = .journalHigh
  · subst hc; exact hhigh
  · have := hcounts c
    rw [h.port]
    cases c <;> first | exact this | exact absurd rfl hc

theorem OnlyVerdicts.kept {s s' : State} (h : OnlyVerdicts s s') (k : HighRan s s') : Kept s s' where
  journal hj := ⟨by rw [h.cur]; exact hj.1, by rw [h.store]; exact hj.2⟩
  room hr := by
    rw [roomLaw_iff] at hr ⊢
    rwa [h.cur, h.store]
  lineup hl := by rwa [h.billing]
  catalogue hc := by rwa [h.billing]
  bounds := h.bounds k
  filter := FilterLaw_congr (by rw [h.cells]) fun o => by
    obtain ⟨hroute, -, hpresent, -⟩ := h.outputs o
    exact ⟨hpresent, hroute⟩

theorem kept_rerun (outs : List Screen) (s : State) : Kept s (s.rerun outs) :=
  (onlyVerdicts_rerun outs s).kept (highRan_rerun outs s)

theorem kept_rerunAll (s : State) : Kept s s.rerunAll := kept_rerun _ s

theorem kept_dropUnlock (which : Option Screen) (s : State) : Kept s (s.dropUnlock which) :=
  kept_onLock _ s (by split <;> rfl)

theorem kept_dropUnlocks (s : State) : Kept s s.dropUnlocks := kept_onLock _ s rfl

theorem kept_judgeLapses (s : State) (concerned : Screen → Bool) : Kept s (s.judgeLapses concerned) := by
  unfold State.judgeLapses
  refine Kept.ite (.refl s) ?_
  exact ((Kept.foldl (fun s w => kept_dropUnlock w s) _ s).trans (kept_raiseTimes _ _ _)).trans
    (kept_rerunAll _)

end Sys2Proof.Machine
end

section
/-! PROOF. The operations the commands share keep the laws of the journal, the room record and the volatile
tables. -/

namespace Sys2Proof.Machine

/-! ## Writes that take turns -/

theorem kept_turnsAdvance (s : State) : Kept s s.turnsAdvance := kept_onTurns _ s

theorem kept_fallDue (w : TurnWrite) (s : State) : Kept s (s.fallDue w) :=
  (kept_onTurns _ s).trans (kept_turnsAdvance _)

theorem kept_meterChanged (s : State) : Kept s s.meterChanged :=
  .ite (kept_onBilling _ s rfl rfl) (kept_fallDue _ s)

theorem kept_presentedChanged (s : State) : Kept s s.presentedChanged :=
  .ite (kept_onJournal _ s) (kept_fallDue _ s)

theorem kept_viewingChanged (s : State) : Kept s s.viewingChanged :=
  kept_onBilling _ s (by split <;> rfl) (by split <;> rfl)

theorem kept_useOrder (matters : Bool) (s : State) : Kept s (s.useOrder matters) :=
  .ite (kept_onChoices _ s) (.refl s)

/-! ## The journal, sessions and day spend -/

theorem kept_occupancyRose (s : State) : Kept s s.occupancyRose :=
  .ite ((kept_raise _ s).trans (kept_onJournal _ _)) (.refl s)

theorem kept_occupancyFell (s : State) : Kept s s.occupancyFell := .ite (kept_onJournal _ s) (.refl s)

theorem kept_appendRecord (r : ChargeRecord) (s : State) : Kept s (s.appendRecord r) :=
  (kept_durably_same (Retained.append r) s (fun _ => rfl) fun _ => journalLaw_append r).trans (kept_raise _ _)

theorem kept_present (r : ChargeRecord) (s : State) : Kept s (s.present r) :=
  ((kept_onCur (fun x => { x with records := presentIn r.number x.records }) s rfl rfl
    (numbers_presentIn _ _)).trans (kept_onJournal _ _)).trans (kept_presentedChanged _)

theorem kept_beginClose (n : Nat) (cause : CloseCause) (s : State) : Kept s (s.beginClose n cause) := by
  unfold State.beginClose
  split
  · refine .ite (.refl s) ?_
    exact ((kept_onCur (Retained.onSession n (.close cause)) s rfl rfl rfl).trans
      (kept_onBilling _ _ rfl rfl)).trans (kept_fallDue _ _)
  · exact .refl s

theorem kept_closeOldest (cause : CloseCause) (p : Session → Bool) (s : State) :
    Kept s (s.closeOldest cause p) := by
  unfold State.closeOldest
  split
  · exact kept_beginClose _ _ _
  · exact .refl s

theorem kept_addDaySpend (n units : Nat) (s : State) : Kept s (s.addDaySpend n units) :=
  .ite (.refl s) (.ite (kept_onCur _ s rfl rfl rfl)
    (.ite (kept_onCur _ s rfl rfl rfl) (kept_onCur _ s rfl rfl rfl)))

theorem kept_judgeExpiries (s : State) : Kept s s.judgeExpiries := kept_onBilling _ s rfl rfl

/-! ## Keys and engines -/

theorem kept_onKeyGroup (g : Nat) (f : KeyGroup → KeyGroup) (s : State) : Kept s (s.onKeyGroup g f) :=
  kept_onKeys _ s

theorem kept_promoteKeys (s : State) : Kept s s.promoteKeys := kept_onKeys _ s

theorem kept_takeAccessOp (g : Nat) (op : AccessOp) (s : State) : Kept s (s.takeAccessOp g op) :=
  .ite (kept_onKeyGroup g _ s) (.ite (.refl s) (kept_onKeyGroup g _ s))

theorem kept_nextAccessOp (g : Nat) (s : State) : Kept s (s.nextAccessOp g) := by
  unfold State.nextAccessOp
  split
  · exact (kept_onKeyGroup g _ s).trans (kept_takeAccessOp g _ _)
  · exact kept_onKeyGroup g _ s

theorem kept_powerEngines (s : State) : Kept s s.powerEngines := .ite (kept_onPool _ s) (.refl s)

theorem Output.unhold_frame (x : Output) : x.unhold.present = x.present ∧ x.unhold.route = x.route := by
  unfold Output.unhold
  split <;> exact ⟨rfl, rfl⟩

theorem kept_enginesOff (s : State) : Kept s s.enginesOff :=
  ((kept_onPool _ s).trans (kept_onOutputs _ _ Output.unhold_frame)).trans (kept_promoteKeys _)

theorem kept_restartEngines (s : State) : Kept s s.restartEngines :=
  ((kept_onPool _ s).trans (kept_onOutputs _ _ Output.unhold_frame)).trans (kept_promoteKeys _)

theorem kept_setEngine (e : EngineId) (v : Engine) (s : State) : Kept s (s.setEngine e v) := kept_onPool _ s

theorem kept_holdAll (e : EngineId) (outs : List Screen) (s : State) : Kept s (s.holdAll e outs) :=
  Kept.foldl (fun s o => kept_onOutput o (.hold e) s fun _ => ⟨rfl, rfl⟩) outs s

theorem kept_endWarmUp (e : EngineId) (s : State) : Kept s (s.endWarmUp e).1 := by
  unfold State.endWarmUp
  split
  · exact kept_setEngine _ _ s
  · split
    · exact kept_setEngine _ _ s
    · exact ((kept_onPool _ s).trans (kept_setEngine _ _ _)).trans (kept_holdAll _ _ _)
  · exact .refl s

/-! ## Routes -/

theorem kept_applyRoute (o : Screen) (route : Option Nat) (s : State) : Kept s (s.applyRoute o route) :=
  (kept_refilter _ s).trans (kept_rerun _ _)

theorem kept_endHold (s : State) : Kept s s.endHold := by
  unfold State.endHold
  exact ((kept_refilter _ s).trans (Kept.foldl (fun s o => kept_dropUnlock (some o) s) _ _)).trans
    (kept_rerun _ _)

/-! ## The Set Port -/

theorem kept_startSending (s : State) : Kept s s.startSending :=
  .ite (kept_onPort _ s id rfl) (.refl s)

theorem kept_queueFrame (f : OutFrame) (s : State) : Kept s (s.queueFrame f) :=
  (kept_onPort _ s id rfl).trans (kept_startSending _)

theorem kept_queueError (bytes : List Byte) (s : State) : Kept s (s.queueError bytes) :=
  .ite (kept_queueFrame _ s) (.refl s)

theorem kept_replyWith (st : Status) (fields : List Byte) (resets : Bool) (s : State) :
    Kept s (s.replyWith st fields resets) := by
  unfold State.replyWith
  split
  · exact .refl s
  · rename_i r rest h
    refine (kept_onPort _ s (fun hl => ?_) rfl).trans (kept_queueFrame _ _)
    rw [h] at hl
    exact Nat.le_of_succ_le hl

theorem kept_reply (st : Status) (fields : List Byte) (s : State) : Kept s (s.reply st fields) :=
  kept_replyWith st fields false s

/-- The intake takes a request while fewer than eight wait (R161). -/
theorem kept_offer (r : Request) (s : State) : Kept s (s.offer r) := by
  unfold State.offer
  split
  · rename_i h
    exact kept_onPort _ s (fun _ => by simpa using h) rfl
  · exact (kept_raise _ s).trans (kept_queueError _ _)

theorem kept_judgeFrame (got crc : List Byte) (s : State) : Kept s (s.judgeFrame got crc) :=
  .ite (kept_offer _ s) ((kept_raise _ s).trans (kept_queueError _ _))

theorem kept_setReceiver (r : Receiver) (s : State) : Kept s (s.setReceiver r) := kept_onPort _ s id rfl

theorem kept_dropFrame (s : State) : Kept s s.dropFrame := (kept_setReceiver _ s).trans (kept_raise _ _)

theorem kept_takeChar (c : Byte) (s : State) : Kept s (s.takeChar c) := by
  unfold State.takeChar
  split
  · exact .ite (kept_setReceiver _ s) (.refl s)
  · exact .ite (kept_setReceiver _ s) (kept_dropFrame s)
  · exact .ite (kept_setReceiver _ s) (kept_setReceiver _ s)
  · exact kept_setReceiver _ s
  · exact (kept_setReceiver _ s).trans (kept_judgeFrame _ _ _)

theorem kept_arriveChar (c : Byte) (s : State) : Kept s (s.arriveChar c) := by
  refine .ite (.refl s) (Kept.trans ?_ (kept_takeChar c _))
  exact (Kept.ite (kept_dropFrame s) (.refl s)).trans (kept_onPort _ _ id rfl)

theorem kept_beginRequest {p : Byte → Bool} {f : Request → State → State} (h : ∀ r s, Kept s (f r s))
    (s : State) : Kept s (s.beginRequest p f) := by
  unfold State.beginRequest
  split
  · exact .ite (h _ s) (.refl s)
  · exact .refl s

theorem kept_request {kind : Nat} {group : Group} {f : List Byte → State → State}
    (h : ∀ b s, Kept s (f b s)) (s : State) : Kept s (s.request kind group f) :=
  kept_beginRequest (fun r s => .ite (kept_reply _ _ s) (.ite (kept_reply _ _ s) (h r.body s))) s

theorem kept_executing (s : State) : Kept s s.executing := kept_onPort _ s id rfl

theorem kept_markGuestWaits (s : State) : Kept s s.markGuestWaits := by
  unfold State.markGuestWaits
  split
  · exact .ite (kept_onPort _ s id rfl) (.refl s)
  · exact .refl s

/-! ## The Rating Lock -/

theorem kept_beginLockWrite (w : LockWrite) (s : State) : Kept s (s.beginLockWrite w) := kept_onLock _ s rfl

theorem kept_beginRoomWrite (w : RoomWrite) (s : State) : Kept s (s.beginRoomWrite w) := kept_onRoom _ s rfl

theorem kept_lockFreed (s : State) : Kept s s.lockFreed := by
  refine .ite (.refl s) ?_
  split
  · exact kept_beginRoomWrite _ s
  · exact .ite ((kept_onLock _ s rfl).trans (kept_beginLockWrite _ _)) (.refl s)

theorem kept_endLockWrite (s : State) : Kept s s.endLockWrite := kept_onLock _ s rfl

theorem kept_lockoutEnded (s before : State) : Kept s (s.lockoutEnded before) :=
  (kept_onLock _ s rfl).trans (.ite (kept_raise _ _) (.refl _))

theorem kept_grant (room : Bool) (screen : Nat) (s : State) : Kept s (s.grant room screen) := by
  refine .ite ((kept_onLock _ s rfl).trans (kept_rerunAll _)) ?_
  split
  · exact (kept_onLock _ s rfl).trans (kept_rerunAll _)
  · exact .refl s

theorem kept_takeLockMessage (m : MsgBody) (s : State) : Kept s (s.takeLockMessage m) := by
  unfold State.takeLockMessage
  split
  · exact .ite (.refl s) (kept_beginLockWrite _ s)
  · exact .ite (.refl s) (kept_beginLockWrite _ s)
  · exact .ite (.refl s) (kept_beginLockWrite _ s)
  · exact .refl s

/-- The waiting list becomes one that is in bounds. -/
theorem kept_setWaiting {a s : State} {ms : List MsgBody} (k : Kept a s) (h : a.Bounds → ms.length ≤ 4) :
    Kept a (s.onLock fun l => { l with waiting := ms }) :=
  { k with
    bounds := fun b =>
      have ⟨hintake, hheld, _, hrest⟩ := k.bounds b
      ⟨hintake, hheld, h b, hrest⟩ }

/-- What is left of the waiting list is no longer than the list was. -/
theorem kept_takeWaiting {a s : State} {ms : List MsgBody} (k : Kept a s) (h : a.Bounds → ms.length ≤ 4) :
    Kept a (s.takeWaiting ms) := by
  induction ms generalizing s with
  | nil => exact kept_setWaiting k h
  | cons m ms ih =>
    refine .ite (kept_setWaiting k h) ?_
    exact ih (k.trans (kept_takeLockMessage m s)) fun b => Nat.le_of_succ_le (h b)

/-! ## The Room Controller -/

theorem kept_endRoomWrite (s : State) : Kept s s.endRoomWrite := kept_onRoom _ s rfl

theorem kept_advanceCheckOut (s : State) : Kept s s.advanceCheckOut :=
  .ite (.ite (kept_beginRoomWrite _ s) (.ite (.refl s) (kept_closeOldest _ _ s))) (.refl s)

theorem kept_beginCheckOut (next : Option CheckIn) (s : State) : Kept s (s.beginCheckOut next) :=
  ((kept_onRoom _ s rfl).trans (kept_rerunAll _)).trans (kept_advanceCheckOut _)

theorem kept_advanceSuspend (s : State) : Kept s s.advanceSuspend := by
  refine .ite (.refl s) ?_
  split
  · exact (kept_onBilling _ s rfl rfl).trans (kept_beginClose _ _ _)
  · exact kept_onBilling _ s rfl rfl

theorem kept_beginNewFolio (c : CheckIn) (s : State) : Kept s (s.beginNewFolio c) := kept_beginRoomWrite _ s

theorem kept_takeCheckIn (c : CheckIn) (s : State) : Kept s (s.takeCheckIn c) :=
  .ite (kept_raise _ s) (.ite (.ite (.ite (.refl s) (kept_beginRoomWrite _ s)) (kept_beginCheckOut _ s))
    (kept_beginNewFolio c s))

theorem kept_takeRoomMessage (m : MsgBody) (s : State) : Kept s (s.takeRoomMessage m) := by
  unfold State.takeRoomMessage
  split
  · exact kept_takeCheckIn _ s
  · exact .ite (kept_beginCheckOut _ s) (kept_raise _ s)
  · exact .ite (.ite (.refl s) (kept_beginRoomWrite _ s)) (kept_raise _ s)
  · exact (kept_onRoom _ s rfl).trans (kept_raise _ _)
  · exact .ite ((kept_onRoom _ s rfl).trans (kept_raise _ _)) (.refl s)
  · exact .ite (.refl s) (kept_beginRoomWrite _ s)
  · exact .ite (kept_beginRoomWrite _ s) (.refl s)
  · exact .ite (.refl s) (kept_beginRoomWrite _ s)
  · exact .refl s

/-- The held list becomes one that is in bounds. -/
theorem kept_setHeld {a s : State} {ms : List MsgBody} (k : Kept a s) (h : a.Bounds → ms.length ≤ 4) :
    Kept a (s.onRoom fun r => { r with held := ms }) :=
  { k with
    bounds := fun b =>
      have ⟨hintake, _, hrest⟩ := k.bounds b
      ⟨hintake, h b, hrest⟩ }

/-- What is left of the held list is no longer than the list was. -/
theorem kept_takeHeld {a s : State} {ms : List MsgBody} (k : Kept a s) (h : a.Bounds → ms.length ≤ 4) :
    Kept a (s.takeHeld ms) := by
  induction ms generalizing s with
  | nil => exact kept_setHeld k h
  | cons m ms ih =>
    refine .ite (kept_setHeld k h) ?_
    exact ih (k.trans (kept_takeRoomMessage m s)) fun b => Nat.le_of_succ_le (h b)

/-! ## Releases -/

theorem kept_beginRelease (upTo : Nat) (s : State) : Kept s (s.beginRelease upTo) :=
  .ite (.refl s) (kept_fallDue _ s)

theorem kept_takeRelease (upTo : Nat) (s : State) : Kept s (s.takeRelease upTo) :=
  .ite (.refl s) (.ite (kept_beginRelease upTo s) (kept_onJournal _ s))

/-! ## The Management Decoder -/

theorem kept_countDrop (s : State) : Kept s s.countDrop := kept_onDecoder _ s fun _ => Nat.min_le_right _ _

theorem kept_recordIssue (m : Message) (s : State) : Kept s (s.recordIssue m) :=
  .ite (kept_onDecoder _ s id) (.refl s)

theorem kept_judgeHanded (ps : List (List Byte)) (s : State) : Kept s (s.judgeHanded ps) := by
  induction ps generalizing s with
  | nil => exact kept_onDecoder _ s id
  | cons p ps ih =>
    unfold State.judgeHanded
    split
    · exact (kept_countDrop s).trans (ih _)
    · exact ih s
    · exact kept_onDecoder _ s id

theorem kept_handOver (p : List Byte) (s : State) : Kept s (s.handOver p) := by
  unfold State.handOver
  split
  · exact kept_onDecoder _ s id
  · exact kept_judgeHanded _ s

theorem kept_dispatch {k : MsgKind} {f : Message → State → State} (h : ∀ m s, Kept s (f m s)) (s : State) :
    Kept s (s.dispatch k f) := by
  unfold State.dispatch
  split
  · exact .ite (((kept_onDecoder _ s id).trans (h _ _)).trans (kept_judgeHanded _ _)) (.refl s)
  · exact .refl s

theorem kept_receive {f : MsgBody → State → State} (h : ∀ m s, Kept s (f m s)) (m : Message) (s : State) :
    Kept s (s.receive f m) :=
  (kept_recordIssue m s).trans (h _ _)

/-- A message joins the held list while fewer than four are held (R4). -/
theorem kept_receiveRoom (m : Message) (s : State) : Kept s (s.receiveRoom m) := by
  refine .ite ((kept_recordIssue m s).trans (kept_takeRoomMessage _ _)) ?_
  split
  · rename_i h
    refine kept_setHeld (kept_recordIssue m s) fun _ => ?_
    have : (s.recordIssue m).room = s.room := by unfold State.recordIssue; split <;> rfl
    simpa [this] using h
  · exact kept_countDrop s

/-- A message joins the waiting list while fewer than four wait (R102). -/
theorem kept_receiveLock (m : Message) (s : State) : Kept s (s.receiveLock m) := by
  refine .ite ((kept_recordIssue m s).trans (kept_takeLockMessage _ _)) ?_
  split
  · rename_i h
    refine kept_setWaiting (kept_recordIssue m s) fun _ => ?_
    have : (s.recordIssue m).lock = s.lock := by unfold State.recordIssue; split <;> rfl
    simpa [this] using h
  · exact kept_countDrop s

end Sys2Proof.Machine
end

section
/-! PROOF. What the property offers keeps the laws: the lineup and the catalogue stay in order and within their
bounds (R42, R43, R114 to R118). -/

namespace Sys2Proof.Machine

/-! ## Insertion in order -/

/-- Insertion in ascending order of a key, before the first item of a greater one: what the lineup and the
catalogue do with a record. -/
def insertBy (key : α → Nat) (x : α) : List α → List α
  | [] => [x]
  | y :: ys => if key x < key y then x :: y :: ys else y :: insertBy key x ys

theorem insertService_eq (x : Service) (l : List Service) : insertService x l = insertBy (·.number) x l := by
  induction l with
  | nil => rfl
  | cons y ys ih => simp only [insertService, insertBy, ih]

theorem insertTitle_eq (x : Title) (l : List Title) : insertTitle x l = insertBy (·.title) x l := by
  induction l with
  | nil => rfl
  | cons y ys ih => simp only [insertTitle, insertBy, ih]

theorem insertBy_perm (key : α → Nat) (x : α) (l : List α) : (insertBy key x l).Perm (x :: l) := by
  induction l with
  | nil => exact .refl _
  | cons y ys ih =>
    unfold insertBy
    split
    · exact .refl _
    · exact (ih.cons y).trans (.swap x y ys)

theorem insertBy_sorted {key : α → Nat} {x : α} {l : List α} (hs : l.Pairwise fun y z => key y < key z)
    (hx : ∀ y ∈ l, key y ≠ key x) : (insertBy key x l).Pairwise fun y z => key y < key z := by
  induction l with
  | nil => exact List.pairwise_singleton _ _
  | cons y ys ih =>
    obtain ⟨hy, hys⟩ := List.pairwise_cons.1 hs
    unfold insertBy
    split
    · rename_i hlt
      refine List.pairwise_cons.2 ⟨fun z hz => ?_, hs⟩
      rcases List.mem_cons.1 hz with rfl | hz
      · exact hlt
      · exact hlt.trans (hy z hz)
    · refine List.pairwise_cons.2 ⟨fun z hz => ?_, ih hys fun z hz => hx z (.tail _ hz)⟩
      have := hx y (.head _)
      rcases List.mem_cons.1 ((insertBy_perm key x ys).mem_iff.1 hz) with rfl | hz
      · omega
      · exact hy z hz

/-! ## The lineup (R115) -/

theorem meteredCount_cons (x : Service) (l : List Service) :
    meteredCount (x :: l) = meteredCount l + if x.kind.isMetered then 1 else 0 := by
  unfold meteredCount
  rw [List.filter_cons]
  split <;> simp

theorem lineupLaw_of_sublist {l l' : List Service} (h : l'.Sublist l) (k : LineupLaw l) : LineupLaw l' := by
  obtain ⟨hsorted, hpositions, hlength, hmetered⟩ := k
  exact ⟨hsorted.sublist h, hpositions.sublist (h.map _), h.length_le.trans hlength,
    (h.filter _).length_le.trans hmetered⟩

/-- A record of a new number and position joins a lineup with room for it. -/
theorem lineupLaw_insert {x : Service} {l : List Service} (h : LineupLaw l)
    (hnumber : ∀ y ∈ l, y.number ≠ x.number) (hposition : ∀ y ∈ l, y.position ≠ x.position)
    (hroom : l.length < 96) (hmetered : x.kind.isMetered = true → meteredCount l < 8) :
    LineupLaw (insertService x l) := by
  obtain ⟨hsorted, hpositions, _, hcount⟩ := h
  have hp : (insertService x l).Perm (x :: l) := insertService_eq x l ▸ insertBy_perm _ x l
  refine ⟨insertService_eq x l ▸ insertBy_sorted hsorted hnumber, ?_, ?_, ?_⟩
  · refine (hp.map _).nodup_iff.2 (List.nodup_cons.2 ⟨fun hx => ?_, hpositions⟩)
    obtain ⟨y, hy, he⟩ := List.mem_map.1 hx
    exact hposition y hy he
  · rw [hp.length_eq, List.length_cons]
    omega
  · have : meteredCount (insertService x l) = meteredCount (x :: l) := (hp.filter _).length_eq
    rw [this, meteredCount_cons]
    split
    · exact hmetered ‹_›
    · omega

/-- With a record of a number gone, a lineup holds fewer records, and fewer METERED ones where it was METERED. -/
theorem removeService_fewer {y : Service} {l : List Service} (hy : y ∈ l) :
    (removeService y.number l).length < l.length ∧
      (y.kind.isMetered = true → meteredCount (removeService y.number l) < meteredCount l) := by
  have fewer : ∀ m : List Service, y ∈ m → (removeService y.number m).length < m.length := fun m hm =>
    List.length_filter_lt_length_iff_exists.2 ⟨y, hm, by simp⟩
  refine ⟨fewer l hy, fun hk => ?_⟩
  have := fewer (l.filter fun x => x.kind.isMetered) (List.mem_filter.2 ⟨hy, hk⟩)
  unfold meteredCount removeService at *
  rwa [List.filter_comm]

/-- Adding a record whose channel position no other service holds keeps the law of the lineup (R115). -/
theorem lineupLaw_addToLineup {x : Service} {l : List Service} (h : LineupLaw l)
    (hposition : ∀ y ∈ l, y.position = x.position → y.number = x.number) :
    LineupLaw (addToLineup x l).1 := by
  have hremoved : LineupLaw (removeService x.number l) := lineupLaw_of_sublist List.filter_sublist h
  have hcount := h.2.2.2
  have hlength := h.2.2.1
  unfold addToLineup
  split
  · rename_i y hfind
    have hy := List.mem_of_find?_eq_some hfind
    have hnumber : y.number = x.number := by simpa using List.find?_some hfind
    obtain ⟨hfewer, hfewerMetered⟩ := removeService_fewer hy
    rw [hnumber] at hfewer hfewerMetered
    split
    · exact hremoved
    · rename_i hfull
      refine lineupLaw_insert hremoved (fun z hz => ?_) (fun z hz he => ?_) (by omega) fun hx => ?_
      · simpa using (List.mem_filter.1 hz).2
      · obtain ⟨hz, hne⟩ := List.mem_filter.1 hz
        exact absurd (hposition z hz he) (by simpa using hne)
      · have hle : meteredCount (removeService x.number l) ≤ meteredCount l :=
          (List.filter_sublist.filter _).length_le
        cases hk : y.kind.isMetered
        · simp [hx, hk] at hfull
          omega
        · have := hfewerMetered hk
          omega
  · rename_i hfind
    have hnew : ∀ y ∈ l, y.number ≠ x.number := by simpa using hfind
    split
    · exact h
    · split
      · exact h
      · rename_i hroom hfull
        refine lineupLaw_insert h hnew (fun y hy he => hnew y hy (hposition y hy he)) (by omega) fun hx => ?_
        simpa [hx] using hfull

theorem kept_serviceChanged (n : Nat) (s before : State) : Kept s (s.serviceChanged n before) :=
  ((kept_promoteKeys s).trans (kept_judgeLapses _ _)).trans (kept_rerun _ _)

/-- A lineup that is lawful where the one before it was. -/
theorem kept_setLineup (l : List Service) (s : State) (h : LineupLaw s.billing.lineup → LineupLaw l) :
    Kept s (s.setLineup l) :=
  { Kept.refl s with lineup := h }

theorem kept_addService (raw : RawService) (s : State) : Kept s (s.addService raw) := by
  unfold State.addService
  split
  · rename_i x _
    split
    · exact .refl s
    · rename_i hposition
      refine .ite ((kept_setLineup _ s fun h => lineupLaw_addToLineup h fun y hy he => ?_).trans
        (kept_serviceChanged _ _ _)) (.refl s)
      simp only [List.any_eq_true, not_exists, not_and] at hposition
      simpa [he] using hposition y hy
  · exact .refl s

theorem kept_emptyLineup (s : State) : Kept s s.emptyLineup :=
  (((kept_setLineup [] s fun _ => ⟨.nil, .nil, by decide, by decide⟩).trans (kept_promoteKeys _)).trans
    (kept_judgeLapses _ _)).trans (kept_rerunAll _)

theorem kept_onLineupAssembly (f : Assembly → Assembly) (s : State) : Kept s (s.onLineupAssembly f) :=
  kept_onDecoder _ s id

theorem kept_takeLineup (version index count : Nat) (records : List RawService) (s : State) :
    Kept s (s.takeLineup version index count records) :=
  have added (s : State) := Kept.foldl (fun s r => kept_addService r s) records s
  .ite (((kept_emptyLineup s).trans (kept_onLineupAssembly _ _)).trans (added _))
    (.ite (.refl s) (.ite (kept_countDrop s) ((kept_onLineupAssembly _ s).trans (added _))))

/-! ## The catalogue (R117) -/

/-- A record of a new title joins a catalogue with room for it. -/
theorem catalogueLaw_insert {x : Title} {l : List Title} (hs : l.Pairwise fun y z => y.title < z.title)
    (hx : ∀ y ∈ l, y.title ≠ x.title) (hroom : l.length < 64) : CatalogueLaw (insertTitle x l) := by
  rw [insertTitle_eq]
  exact ⟨insertBy_sorted hs hx, by rw [(insertBy_perm _ x l).length_eq, List.length_cons]; omega⟩

theorem catalogueLaw_addToCatalogue {x : Title} {l l' : List Title} (h : CatalogueLaw l)
    (ha : addToCatalogue x l = some l') : CatalogueLaw l' := by
  obtain ⟨hsorted, hlength⟩ := h
  unfold addToCatalogue at ha
  split at ha
  · rename_i hany
    cases ha
    obtain ⟨y, hy, he⟩ := List.any_eq_true.1 hany
    have hfewer : (l.filter fun y => y.title != x.title).length < l.length :=
      List.length_filter_lt_length_iff_exists.2 ⟨y, hy, by simpa using he⟩
    refine catalogueLaw_insert (hsorted.filter _) (fun z hz => ?_) (by omega)
    simpa using (List.mem_filter.1 hz).2
  · rename_i hnone
    split at ha
    · cases ha
    · cases ha
      exact catalogueLaw_insert hsorted (by simpa using hnone) (by omega)

theorem kept_setCatalogue (l : List Title) (s : State) (h : CatalogueLaw s.billing.catalogue → CatalogueLaw l) :
    Kept s (s.setCatalogue l) :=
  have set : Kept s (s.onBilling fun b => { b with catalogue := l }) := { Kept.refl s with catalogue := h }
  (set.trans (kept_judgeLapses _ _)).trans (kept_rerunAll _)

theorem kept_addTitle (raw : RawTitle) (s : State) : Kept s (s.addTitle raw) := by
  unfold State.addTitle
  split
  · split
    · rename_i hl
      exact kept_setCatalogue _ s fun h => catalogueLaw_addToCatalogue h hl
    · exact .refl s
  · exact .refl s

theorem kept_onCatalogueAssembly (f : Assembly → Assembly) (s : State) : Kept s (s.onCatalogueAssembly f) :=
  kept_onDecoder _ s id

theorem kept_takeCatalogue (version index count : Nat) (records : List RawTitle) (s : State) :
    Kept s (s.takeCatalogue version index count records) :=
  have added (s : State) := Kept.foldl (fun s r => kept_addTitle r s) records s
  .ite (((kept_setCatalogue [] s fun _ => ⟨.nil, by decide⟩).trans (kept_onCatalogueAssembly _ _)).trans
      (added _))
    (.ite (.refl s) (.ite (kept_countDrop s) ((kept_onCatalogueAssembly _ s).trans (added _))))

/-! ## Tiers, policy, rates and property time -/

theorem kept_takeTier (tier : Nat) (granted : Bool) (s : State) : Kept s (s.takeTier tier granted) := by
  unfold State.takeTier
  split
  · exact kept_onBilling _ s rfl rfl
  · exact .ite (kept_onBilling _ s rfl rfl) (.ite (.refl s) (kept_onBilling _ s rfl rfl))

theorem kept_takePolicy (p : Policy) (s : State) : Kept s (s.takePolicy p) :=
  .ite (kept_onBilling _ s rfl rfl) (.ite (.refl s) (kept_onBilling _ s rfl rfl))

theorem kept_takeRates (r : Rates) (s : State) : Kept s (s.takeRates r) :=
  .ite (kept_onBilling _ s rfl rfl) (.ite (.refl s) (kept_onBilling _ s rfl rfl))

theorem kept_takeTime (new : PTime) (s : State) : Kept s (s.takeTime new) := by
  unfold State.takeTime
  split
  · exact ((kept_onTime _ s).trans (kept_rerunAll _)).trans (kept_judgeExpiries _)
  · exact .ite ((kept_onTime _ s).trans (kept_judgeExpiries _)) (kept_onTime _ s)

end Sys2Proof.Machine
end

section
/-! PROOF. What the commands are made of, beyond the shared operations, keeps the laws of the journal, the room
record and the volatile tables: one lemma per operation. -/

namespace Sys2Proof.Machine

/-! ## Cells -/

theorem kept_cellDecoded (e : EngineId) (n : Nat) (parity : Option Parity) (s : State) :
    Kept s (s.cellDecoded e n parity) := by
  unfold State.cellDecoded
  split
  · have restarted (v : Engine) := (kept_setEngine e v s).trans (kept_promoteKeys _)
    exact .ite ((restarted _).trans (kept_rerun _ _)) (restarted _)
  · exact .refl s

theorem Output.takeContent_frame (n : Nat) (payload : List Byte) (x : Output) :
    (x.takeContent n payload).present = x.present ∧ (x.takeContent n payload).route = x.route := by
  unfold Output.takeContent
  dsimp only
  repeat' split
  all_goals exact ⟨rfl, rfl⟩

theorem kept_deliver (n : Nat) (payload : List Byte) (s : State) : Kept s (s.deliver n payload) :=
  kept_onOutputs _ s (Output.takeContent_frame n payload)

theorem kept_passMedia (n count : Nat) (payload : List Byte) (sc : Scramble) (s : State) :
    Kept s (s.passMedia n count payload sc) := by
  unfold State.passMedia
  split
  · exact (kept_cellDecoded _ _ _ s).trans (kept_deliver _ _ _)
  · exact kept_deliver _ _ s
  · split
    · exact (kept_cellDecoded _ _ _ s).trans (kept_deliver _ _ _)
    · exact .refl s
  · exact .refl s

theorem kept_arriveMedia (cell : List Byte) (s : State) : Kept s (s.arriveMedia cell) := by
  unfold State.arriveMedia State.acceptMedia
  split
  · have seen (n count : Nat) := kept_onProgramme n (.seeMedia s.now count) s fun _ => rfl
    exact .ite ((Kept.ite ((seen _ _).trans (kept_rerun _ _)) (seen _ _)).trans (kept_passMedia _ _ _ _ _))
      (.refl s)
  · exact .refl s

theorem kept_programmeChanged (n : Nat) (s before : State) : Kept s (s.programmeChanged n before) :=
  (kept_judgeLapses s _).trans (kept_rerun _ _)

theorem kept_arriveDescriptor (cell : List Byte) (s : State) : Kept s (s.arriveDescriptor cell) :=
  have seen (n title rating : Nat) := kept_onProgramme n (.seeDescriptor s.now title rating) s fun _ => rfl
  .ite (.ite ((seen _ _ _).trans (kept_programmeChanged _ _ _)) (seen _ _ _)) (.refl s)

theorem kept_arriveManagement (cell : List Byte) (s : State) : Kept s (s.arriveManagement cell) :=
  .ite (kept_handOver _ s) (.refl s)

/-! ## Messages -/

theorem kept_takeGrant (m : MsgBody) (s : State) : Kept s (s.takeGrant m) := by
  unfold State.takeGrant
  split
  · exact kept_takeTier _ _ _
  · exact .refl _

theorem kept_takeRevocation (m : MsgBody) (s : State) : Kept s (s.takeRevocation m) := by
  unfold State.takeRevocation
  split
  · exact kept_takeTier _ _ _
  · exact .refl _

theorem kept_takeLineupBody (m : MsgBody) (s : State) : Kept s (s.takeLineupBody m) := by
  unfold State.takeLineupBody
  split
  · exact kept_takeLineup _ _ _ _ _
  · exact .refl _

theorem kept_takeCatalogueBody (m : MsgBody) (s : State) : Kept s (s.takeCatalogueBody m) := by
  unfold State.takeCatalogueBody
  split
  · exact kept_takeCatalogue _ _ _ _ _
  · exact .refl _

theorem kept_takePolicyBody (m : MsgBody) (s : State) : Kept s (s.takePolicyBody m) := by
  unfold State.takePolicyBody
  split
  · exact kept_takePolicy _ _
  · exact .refl _

theorem kept_takeRatesBody (m : MsgBody) (s : State) : Kept s (s.takeRatesBody m) := by
  unfold State.takeRatesBody
  split
  · exact kept_takeRates _ _
  · exact .refl _

theorem kept_keyDropped (s : State) : Kept s s.keyDropped := (kept_countDrop s).trans (kept_raise _ _)

theorem kept_takeGroupKey (m : MsgBody) (s : State) : Kept s (s.takeGroupKey m) := by
  unfold State.takeGroupKey
  split
  · split
    · exact .ite (kept_takeAccessOp _ _ _) (kept_keyDropped _)
    · exact .refl _
  · exact .refl _

theorem kept_takeRevokeGroup (m : MsgBody) (s : State) : Kept s (s.takeRevokeGroup m) := by
  unfold State.takeRevokeGroup
  split
  · exact kept_takeAccessOp _ _ _
  · exact .refl _

theorem kept_takeKeyDelivery (m : MsgBody) (s : State) : Kept s (s.takeKeyDelivery m) := by
  unfold State.takeKeyDelivery
  split
  · split
    · exact .ite (kept_onKeyGroup _ _ _) (kept_keyDropped _)
    · exact .refl _
  · exact .refl _

theorem kept_takeReleaseBody (m : MsgBody) (s : State) : Kept s (s.takeReleaseBody m) := by
  unfold State.takeReleaseBody
  split
  · exact kept_takeRelease _ _
  · exact .refl _

theorem kept_takeTimeBody (m : MsgBody) (s : State) : Kept s (s.takeTimeBody m) := by
  unfold State.takeTimeBody
  split
  · exact kept_takeTime _ _
  · exact .refl _

theorem kept_takeFullReset (m : MsgBody) (s : State) : Kept s (s.takeFullReset m) := by
  unfold State.takeFullReset
  split
  · exact .ite (.refl _) (kept_onSerials _ _)
  · exact .refl _

/-! ## Requests -/

theorem kept_tuneTo (o : Screen) (n : Nat) (s : State) : Kept s (s.tuneTo o n) :=
  .ite (kept_onOutput o _ s fun _ => ⟨rfl, rfl⟩) (.ite (.refl s) (kept_applyRoute o _ s))

theorem kept_switchOff (o : Screen) (s : State) : Kept s (s.switchOff o) :=
  .ite (kept_onOutput o _ s fun _ => ⟨rfl, rfl⟩)
    (((Kept.ite (kept_applyRoute o none s) (.refl s)).trans (kept_dropUnlock _ _)).trans (kept_rerunAll _))

theorem kept_promiseRecord (total : Nat) (s : State) : Kept s (s.promiseRecord total) := kept_onJournal _ s

theorem kept_beginBuy (p : Purchase) (s : State) : Kept s (s.beginBuy p) :=
  (((kept_onRoom _ s rfl).trans (kept_promiseRecord _ _)).trans (kept_executing _)).trans (kept_fallDue _ _)

theorem kept_cancelOwned (p : Purchase) (s : State) : Kept s (s.cancelOwned p) := by
  unfold State.cancelOwned
  split
  · exact kept_reply _ _ s
  · exact .ite (kept_reply _ _ s) (.ite (kept_reply _ _ s)
      (((kept_promiseRecord _ s).trans (kept_executing _)).trans (kept_fallDue _ _)))

theorem kept_beginFailure (s : State) : Kept s s.beginFailure :=
  (kept_beginLockWrite _ s).trans (kept_executing _)

theorem kept_replyLockedOut (s : State) : Kept s s.replyLockedOut := kept_reply _ _ s

theorem kept_tryUnlock (room : Bool) (screen pin : Nat) (s : State) : Kept s (s.tryUnlock room screen pin) :=
  .ite (kept_replyLockedOut s) (.ite (kept_reply _ _ s) (.ite (kept_beginFailure s)
    (.ite ((kept_grant _ _ s).trans (kept_reply _ _ _)) ((kept_beginLockWrite _ s).trans (kept_executing _)))))

theorem kept_trySetPin (old : Option Nat) (new : Nat) (s : State) : Kept s (s.trySetPin old new) :=
  .ite (kept_replyLockedOut s) (.ite (kept_beginFailure s)
    ((kept_beginLockWrite _ s).trans (kept_executing _)))

theorem kept_emptyProgrammes (s : State) : Kept s s.emptyProgrammes := by
  unfold State.emptyProgrammes
  exact ((kept_onCells _ s (by simp [Programme.empty, Function.comp_def])).trans
    (kept_judgeLapses _ _)).trans (kept_rerun _ _)

theorem Output.restarted_frame (x : Output) :
    x.restarted.present = x.present ∧ x.restarted.route = x.route := by
  unfold Output.restarted
  split <;> exact ⟨rfl, rfl⟩

theorem kept_restartOutputs (s : State) : Kept s s.restartOutputs :=
  (kept_onOutputs _ s Output.restarted_frame).trans (kept_rerun _ _)

theorem kept_beginProvision (p : Provision) (s : State) : Kept s (s.beginProvision p) :=
  ((Kept.ite (kept_onKeys _ s) (.refl s)).trans (kept_onPort _ _ id rfl)).trans (kept_executing _)

/-! ## Power, start-up and the line -/

/-- A start-up from retained items that are lawful: every volatile item is in bounds, and no service is in
use. -/
theorem kept_startedWith (r : Retained) (boot : Boot) (fastBaud maintenance : Bool) (s : State)
    (hjournal : JournalLaw s.store → JournalLaw r) (hroom : s.store.room.Lawful → r.room.Lawful) :
    Kept s (startedWith r boot fastBaud maintenance s) where
  journal h := ⟨hjournal h.2, hjournal h.2⟩
  room h := by
    rw [roomLaw_iff] at h ⊢
    exact ⟨rfl, hroom (h.1 ▸ h.2)⟩
  lineup _ := ⟨.nil, .nil, Nat.zero_le _, Nat.zero_le _⟩
  catalogue _ := ⟨.nil, Nat.zero_le _⟩
  bounds _ := ⟨Nat.zero_le _, Nat.zero_le _, Nat.zero_le _, Nat.zero_le _,
    fun c => by cases c <;> exact Nat.zero_le _⟩
  filter _ := by
    refine ⟨.nil, fun n => ⟨fun h => (Bool.false_ne_true h).elim, ?_⟩⟩
    rintro ⟨o, -, hroute⟩
    have : ((startedWith r boot fastBaud maintenance s).output o).route = none := by fin_cases o <;> rfl
    rw [this] at hroute
    cases hroute

theorem kept_closeFound (s : State) : Kept s s.closeFound := kept_closeOldest _ _ s

theorem kept_startUp (boot : Boot) (fastBaud maintenance : Bool) (s : State) :
    Kept s (s.startUp boot fastBaud maintenance) :=
  have started := kept_startedWith (s.store.checked boot.storeIntact) boot fastBaud maintenance s
    (journalLaw_checked _) (lawful_checked _)
  (Kept.ite started (started.trans (kept_raise _ _))).trans (kept_closeFound _)

theorem kept_fullReset (boot : Boot) (s : State) : Kept s (s.fullReset boot) := kept_startUp _ _ _ s

theorem kept_powerUp (fastBaud maintenance : Bool) (boot : Boot) (s : State) :
    Kept s (s.powerUp fastBaud maintenance boot) :=
  (kept_startUp _ _ _ s).trans (kept_onRoom _ _ rfl)

theorem kept_powerDown (s : State) : Kept s s.powerDown :=
  have started := kept_startedWith s.store ⟨true, true, true, true, true⟩ false false s id id
  { started with }

theorem kept_finishStartUp (s : State) : Kept s s.finishStartUp := by
  have set := ((((kept_onJournal (fun j =>
      { j with armed := decide (s.cur.records.length < s.cur.settings.highMark) }) s).trans
    (kept_onLock (fun l => { l with lockoutAt :=
      if s.cur.lock.running then some (s.now + lockoutDuration s.cur.lock.lockouts) else none }) _ rfl)).trans
    (kept_onCells (fun c => { c with enabled := true }) _ rfl)).trans
    (kept_onPort (fun p => { p with opened := true }) _ id rfl)).trans
    (kept_onRouter (fun r => { r with dark := false }) _ fun _ => ⟨rfl, rfl⟩)
  have powered := set.trans (kept_powerEngines _)
  exact { powered with }

theorem Port.onlyBegun_length (p : Port) : p.onlyBegun.length ≤ p.intake.length := by
  unfold Port.onlyBegun
  split
  · exact List.length_take_le' _ _
  · exact Nat.zero_le _

theorem kept_breakLine (boot : Boot) (s : State) : Kept s (s.breakLine boot) :=
  have broken : Kept s ((s.breakGap.raise .link).onPort .broken) :=
    ((Kept.ite (kept_dropFrame s) (.refl s)).trans (kept_raise _ _)).trans
      (kept_onPort _ _ (fun h => (Port.onlyBegun_length _).trans h) rfl)
  .ite (broken.trans (kept_fullReset boot _)) broken

theorem kept_replySent (boot : Boot) (s : State) : Kept s (s.replySent boot) := by
  unfold State.replySent
  split
  · have sent (fs : List OutFrame) := kept_onPort (fun p => { p with outbound := fs, transmitter := .idle }) s id rfl
    exact .ite ((sent _).trans (kept_fullReset boot _)) ((sent _).trans (kept_startSending _))
  · exact .refl s

/-! ## Completions of the Room Controller's writes -/

theorem kept_moneyChanged (s before : State) : Kept s (s.moneyChanged before) :=
  .ite (.refl s) (kept_rerun _ _)

theorem kept_openFolio (folio limit : Nat) (pin : Option Nat) (ceiling : Nat) (s : State) :
    Kept s (s.openFolio folio limit pin ceiling) := by
  unfold State.openFolio
  have opened := (kept_endRoomWrite s).trans (kept_durably
    (fun r => (r.onRoom (.newFolio folio limit)).onLock (.newFolio pin ceiling)) (.newFolio folio limit) _
    (fun _ => rfl) (fun x _ => lawful_newFolio folio limit x) fun _ h => h)
  exact ((((opened.trans (kept_lockoutEnded _ _)).trans (kept_raise _ _)).trans
    (kept_judgeLapses _ _)).trans (kept_rerunAll _)).trans (kept_lockFreed _)

theorem kept_setLimit (limit : Nat) (s : State) : Kept s (s.setLimit limit) :=
  kept_durably_onRoom _ s fun _ h => h

theorem kept_replacePin (pin : Option Nat) (s : State) : Kept s (s.replacePin pin) := by
  unfold State.replacePin
  split
  · exact kept_durably_same _ s (fun _ => rfl) fun _ h => h
  · exact .refl s

theorem kept_setSuspended (on : Bool) (s : State) : Kept s (s.setSuspended on) :=
  .after (kept_raise _ _) (.after (kept_durably_onRoom _ _ fun _ h => h) (kept_endRoomWrite s))

theorem kept_closeForSuspension (s : State) : Kept s s.closeForSuspension :=
  (kept_onBilling _ s rfl rfl).trans (kept_advanceSuspend _)

theorem kept_setLockdown (on : Bool) (s : State) :
    Kept s ((s.endRoomWrite.durably fun r => r.onRoom fun x => { x with lockdown := on }).raise .property) :=
  .after (kept_raise _ _) (.after (kept_durably_onRoom _ _ fun _ h => h) (kept_endRoomWrite s))

theorem kept_clearFolio (settling : Option Nat) (s : State) : Kept s (s.clearFolio settling) :=
  kept_durably _ (.departed settling) s (fun _ => rfl) (fun x _ => lawful_departed settling x) fun _ h => h

theorem kept_takeNextFolio (next : Option CheckIn) (s : State) : Kept s (s.takeNextFolio next) := by
  unfold State.takeNextFolio
  split
  · exact kept_beginNewFolio _ s
  · exact .refl s

theorem kept_completeCheckOut (settling : Option Nat) (s : State) : Kept s (s.completeCheckOut settling) := by
  unfold State.completeCheckOut
  exact ((((((((kept_endRoomWrite s).trans (kept_clearFolio _ _)).trans (kept_dropUnlocks _)).trans
    (kept_onRoom _ _ rfl)).trans (kept_raise _ _)).trans (kept_rerunAll _)).trans
    (kept_markGuestWaits _)).trans (kept_takeNextFolio _ _)).trans (kept_lockFreed _)

theorem kept_enterNewRoom (p : Provision) (s : State) : Kept s (s.enterNewRoom p) :=
  ((((kept_durably (.newRoom p) (fun x => (Retained.newRoom p { s.cur with room := x }).room) s (fun _ => rfl)
    (fun _ _ => by simp [RoomRecord.Lawful, Retained.newRoom]) fun _ h => h).trans (kept_onKeys _ _)).trans
    (kept_onBilling _ _ rfl rfl)).trans (kept_dropUnlocks _)).trans (kept_rerunAll _)

theorem kept_sameRoom (p : Provision) (s : State) : Kept s (s.durably (.sameRoom p)) :=
  kept_durably _ (fun x => { x with group := p.group, storeLost := false }) s (fun _ => rfl) (fun _ h => h)
    fun _ h => h

theorem kept_endProvision (p : Provision) (s : State) :
    Kept s (let ended := s.onPort fun q => { q with provision := none }
      if p.newRoom then ended.enterNewRoom p else ended.durably (.sameRoom p)) :=
  have ended : Kept s (s.onPort fun q => { q with provision := none }) := kept_onPort _ s id rfl
  .ite (ended.trans (kept_enterNewRoom p _)) (ended.trans (kept_sameRoom p _))

/-! ## Completions of the other writes -/

theorem kept_durableLock (f : LockRecord → LockRecord) (s : State) : Kept s (s.durableLock f) :=
  (kept_endLockWrite s).trans (kept_durably_same _ _ (fun _ => rfl) fun _ h => h)

theorem kept_startLockout (s : State) : Kept s s.startLockout := (kept_onLock _ s rfl).trans (kept_raise _ _)

theorem kept_addPurchase (p : Purchase) (s : State) : Kept s (s.durably (.addPurchase p)) :=
  kept_durably_same _ s (fun _ => rfl) fun _ h => h

theorem kept_sell (p : Purchase) (s : State) : Kept s (s.sell p) :=
  have charged := kept_durably (fun r => (r.onRoom (.charged p.total)).addPurchase (s.numbered p))
    (.charged p.total) s (fun _ => rfl) (fun _ h => h) fun _ h => h
  .ite ((charged.trans (kept_appendRecord _ _)).trans (kept_occupancyRose _)) (kept_addPurchase _ s)

theorem kept_refund (p : Purchase) (stamp : PTime) (s : State) : Kept s (s.refund p stamp) :=
  have credited := kept_durably (fun r => (r.onRoom (.credited p.total)).dropPurchase p.title)
    (.credited p.total) s (fun _ => rfl) (fun _ h => h) fun _ h => h
  .ite ((credited.trans (kept_appendRecord _ _)).trans (kept_occupancyRose _))
    (kept_durably_same _ s (fun _ => rfl) fun _ h => h)

theorem kept_nothingPending (s : State) : Kept s s.nothingPending :=
  (kept_onRoom _ s rfl).trans (kept_onJournal _ _)

theorem Retained.endSession_room (n : Nat) (r : Retained) : (r.endSession n).room = r.room := by
  unfold Retained.endSession
  split <;> rfl

theorem journalLaw_endSession (n : Nat) {r : Retained} (h : JournalLaw r) : JournalLaw (r.endSession n) := by
  unfold Retained.endSession
  split <;> exact h

theorem kept_endSession (x : Session) (stamp : PTime) (charged : Bool) (s : State) :
    Kept s (s.endSession x stamp charged) :=
  have spent := kept_durably (fun r => (r.endSession x.service).spend x.contribution)
    (fun y => { y with spend := y.spend + x.contribution }) s
    (fun r => by simp [Retained.spend, Retained.onRoom, Retained.endSession_room]) (fun _ h => h)
    fun _ h => journalLaw_endSession _ h
  .ite (spent.trans (kept_appendRecord _ _))
    ((kept_durably_same _ s (Retained.endSession_room _) fun _ h => journalLaw_endSession _ h).trans
      (kept_occupancyFell _))

theorem kept_afterClose (n : Nat) (s : State) : Kept s (s.afterClose n) :=
  have told := ((kept_turnsAdvance s).trans (kept_rerun (s.routedOrSlated n) _)).trans
    (kept_onBilling (fun b => { b with suspendCloses := b.suspendCloses.filter (· != n) }) _ rfl rfl)
  .ite (told.trans (kept_closeFound _)) ((told.trans (kept_advanceSuspend _)).trans (kept_advanceCheckOut _))

theorem kept_nextMeterWrite (s : State) : Kept s s.nextMeterWrite :=
  .ite ((kept_onBilling _ s rfl rfl).trans (kept_fallDue _ _)) (kept_turnsAdvance s)

theorem kept_removeExpired (p : Purchase) (s : State) : Kept s (s.removeExpired p) :=
  (kept_onStore _ s rfl id).trans (kept_onBilling _ _ rfl rfl)

theorem kept_nextPolicy (s : State) : Kept s s.nextPolicy := by
  unfold State.nextPolicy
  split
  · exact (kept_onBilling _ s rfl rfl).trans (kept_takePolicy _ _)
  · exact .refl s

theorem kept_nextRates (s : State) : Kept s s.nextRates := by
  unfold State.nextRates
  split
  · exact (kept_onBilling _ s rfl rfl).trans (kept_takeRates _ _)
  · exact .refl s

theorem kept_nextTiers (s : State) : Kept s s.nextTiers := kept_onBilling _ s rfl rfl

theorem kept_dropReleased (numbers : List Nat) (cs : List Count) (s : State) :
    Kept s (s.dropReleased numbers cs) :=
  (kept_durably_same (.dropRecords numbers) s (fun _ => rfl) fun _ h => journalLaw_dropRecords numbers h).trans
    (kept_onStore _ _ rfl (journalLaw_withCounts cs))

theorem kept_judgeSettling (s : State) : Kept s s.judgeSettling :=
  have ended := (kept_durably_onRoom .endSettling s fun _ h => lawful_endSettling h).trans (kept_raise .property _)
  .ite (.ite (ended.trans (kept_rerunAll _)) ended) (.refl s)

theorem kept_nextPresentation (s : State) : Kept s s.nextPresentation :=
  .ite ((kept_onJournal _ s).trans (kept_fallDue _ _)) (kept_turnsAdvance s)

theorem kept_setAccessKey (g : Nat) (key : Option Key) (s : State) :
    Kept s (s.durably (.setAccessKey g key)) :=
  kept_durably_same _ s (fun _ => rfl) fun _ h => h

theorem kept_judgeArmed (old : Settings) (s : State) : Kept s (s.judgeArmed old) :=
  .ite (.refl s) (kept_onJournal _ s)

theorem kept_judgePower (old : Settings) (s : State) : Kept s (s.judgePower old) :=
  .ite (.refl s) ((kept_onPool _ s).trans (kept_powerEngines _))

/-! ## Clocks and deadlines -/

theorem kept_tickTime (s : State) : Kept s s.tickTime := by
  unfold State.tickTime
  split
  · exact kept_onTime _ s
  · exact .refl s

theorem kept_countViewing (s : State) : Kept s s.countViewing := by
  unfold State.countViewing
  dsimp only
  have told (f : Retained → Retained) (g : Billing → Billing) (several : Bool) (h₁ h₂ h₃ h₄ h₅) :
      Kept s (((s.onCur f).useOrder several).onBilling g) :=
    ((kept_onCur f s h₁ h₂ h₃).trans (kept_useOrder several _)).trans (kept_onBilling g _ h₄ h₅)
  exact .ite (told _ _ _ rfl rfl rfl rfl rfl) (.after (kept_viewingChanged _) (told _ _ _ rfl rfl rfl rfl rfl))

theorem kept_countMetered (s : State) : Kept s s.countMetered := by
  unfold State.countMetered
  dsimp only
  refine .ite (.after (kept_meterChanged _) ?_) ?_ <;>
    exact .after (kept_onBilling _ _ rfl rfl) (kept_onCur _ s rfl rfl rfl)

theorem Output.tick_frame (x : Output) : x.tick.present = x.present ∧ x.tick.route = x.route := by
  unfold Output.tick
  split <;> exact ⟨rfl, rfl⟩

theorem kept_tick (s : State) : Kept s s.tick := by
  unfold State.tick
  have played := (((kept_onTime (fun c => { c with nextTick := c.nextTick + 1000 }) s).trans
    (kept_tickTime _)).trans (kept_judgeExpiries _)).trans (kept_onOutputs _ _ Output.tick_frame)
  exact (Kept.ite (played.trans (kept_countViewing _)) played).trans (kept_countMetered _)

theorem kept_expire (p : Purchase) (s : State) : Kept s (s.expire p) :=
  ((kept_onCur _ s rfl rfl rfl).trans (kept_onBilling _ _ rfl rfl)).trans (kept_rerunAll _)

theorem kept_accrue (x : Session) (net : Nat) (s : State) : Kept s (s.accrue x net) :=
  ((kept_onCur _ s rfl rfl rfl).trans (kept_addDaySpend _ _ _)).trans (kept_meterChanged _)

theorem kept_endAccrual (n : Nat) (s : State) : Kept s (s.endAccrual n) := kept_onBilling _ s rfl rfl

theorem kept_judgeBlock (x : Session) (terms : MeterTerms) (s : State) : Kept s (s.judgeBlock x terms) := by
  unfold State.judgeBlock
  dsimp only
  refine .ite ?_ ((kept_beginClose _ _ s).trans (kept_rerun _ _))
  split
  · exact .ite (kept_accrue x _ s) ((kept_accrue x _ s).trans (kept_endAccrual _ _))
  · exact kept_accrue x _ s

theorem kept_emptyDaySpend (s : State) : Kept s s.emptyDaySpend :=
  .ite (.refl s) ((kept_onCur _ s rfl rfl rfl).trans (kept_meterChanged _))

/-- Sessions that follow what is shown, with the meter write that owes. -/
theorem kept_judgeSessions (s : State) : Kept s s.judgeSessions := by
  unfold State.judgeSessions
  dsimp only
  have followed (f : Session → Session) : Kept s (s.onCur fun r => { r with meter := r.meter.map f }) :=
    kept_onCur _ s rfl rfl rfl
  refine .ite ?_ (.after (kept_rerun _ _) ?_) <;>
    exact .ite (followed _) (.after (kept_meterChanged _) (followed _))

theorem kept_showAll (s : State) : Kept s s.showAll :=
  have told := (kept_onOutputs .show s fun _ => ⟨rfl, rfl⟩).trans
    (kept_raiseTimes .route (changedShown s.router.outputs (s.onOutputs .show).router.outputs) _)
  .ite ((told.trans (kept_judgeLapses _ _)).trans (kept_judgeSessions _)) told

theorem kept_nextBoundary (s : State) : Kept s s.nextBoundary := kept_onTime _ s

/-- A change of presence recomputes the filter set (R96). -/
theorem kept_changePresence (o : Screen) (display : Bool) (s : State) : Kept s (s.changePresence o display) :=
  ((kept_raise .screen s).trans (kept_refilter
    (fun r => { r with outputs := r.outputs.set ((r.outputs.get o).setPresence display) o }) _)).trans
    (kept_rerun _ _)

theorem kept_probe (o : Screen) (display : Bool) (s : State) : Kept s (s.probe o display) :=
  have probed := kept_onOutput o (.probed s.now display) s fun _ => ⟨rfl, rfl⟩
  .ite (probed.trans (kept_changePresence _ _ _)) probed

theorem kept_deferUnlock (which : Option Screen) (s : State) : Kept s (s.deferUnlock which) :=
  kept_onLock _ s (by split <;> rfl)

theorem kept_endUnlock (which : Option Screen) (s : State) : Kept s (s.endUnlock which) :=
  .ite (kept_deferUnlock which s) (((kept_dropUnlock which s).trans (kept_raise _ _)).trans (kept_rerunAll _))

theorem kept_endLockout (s : State) : Kept s s.endLockout := by
  unfold State.endLockout
  have ended := ((kept_onCur (.onLock fun l => { l with running := false }) s rfl rfl rfl).trans
    (kept_onLock (fun l => { l with lockoutAt := none }) _ rfl)).trans (kept_raise .lock _)
  exact .ite (ended.trans (kept_onLock _ _ rfl)) (ended.trans (kept_beginLockWrite _ _))

theorem kept_closeWindow (s : State) : Kept s s.closeWindow := kept_onRoom _ s rfl

end Sys2Proof.Machine
end

section
/-! PROOF. Every command, and so every step, keeps the laws of the journal, the room record and the volatile
tables: one lemma per command, and with them O57 and O58. -/

namespace Sys2Proof.Machine

/-! ## What commands are made of -/

/-- A command that occurs keeps the laws where its effect does. -/
theorem kept_occurs {f : State → State} {t : Nat} {s s' : State} (hs : occurs t f s = .next s')
    (h : ∀ s, Kept s (f s)) : Kept s s' := by
  cases hs
  exact .ite (.refl s) ((kept_atInstant t s).trans (h _))

theorem kept_requestOccurs {kind : Nat} {group : Group} {f : List Byte → State → State} {t : Nat} {s s' : State}
    (hs : occurs t (·.request kind group f) s = .next s') (h : ∀ b s, Kept s (f b s)) : Kept s s' :=
  kept_occurs hs (kept_request h)

theorem kept_queryOccurs {kind : Nat} {group : Group} {fields : List Byte → State → List Byte} {t : Nat}
    {s s' : State} (hs : occurs t (·.request kind group fun b s => s.reply .ok (fields b s)) s = .next s') :
    Kept s s' :=
  kept_requestOccurs hs fun _ _ => kept_reply _ _ _

theorem kept_messageOccurs {k : MsgKind} {f : Message → State → State} {t : Nat} {s s' : State}
    (hs : occurs t (·.dispatch k f) s = .next s') (h : ∀ m s, Kept s (f m s)) : Kept s s' :=
  kept_occurs hs (kept_dispatch h)

/-! ## Power and the set-port line -/

theorem kept_execPowerOn {fastBaud maintenance : Bool} {boot : Boot} {s s' : State}
    (h : execPowerOn fastBaud maintenance boot s = .next s') : Kept s s' := by
  cases h
  exact kept_powerUp _ _ _ s

theorem kept_execStartUpStage5 {t : Nat} {s s' : State} (h : execStartUpStage5 t s = .next s') : Kept s s' :=
  kept_occurs h (fun s => .ite (kept_finishStartUp s) (.refl s))

theorem kept_execLineBreak {t : Nat} {boot : Boot} {s s' : State}
    (h : execLineBreak t boot s = .next s') : Kept s s' :=
  kept_occurs h (fun s => .ite (kept_breakLine boot s) (.refl s))

theorem kept_execLineBreakEnd {t : Nat} {s s' : State} (h : execLineBreakEnd t s = .next s') : Kept s s' :=
  kept_occurs h (fun s => .after (kept_startSending _) (kept_onPort _ s id rfl))

theorem kept_execFrameReceived {t : Nat} {chars : List Byte} {s s' : State}
    (h : execFrameReceived t chars s = .next s') : Kept s s' :=
  kept_occurs h (Kept.foldl (fun s c => kept_arriveChar c s) chars)

theorem kept_execFrameGapTimeout {t : Nat} {s s' : State}
    (h : execFrameGapTimeout t s = .next s') : Kept s s' :=
  kept_occurs h (fun s => .ite (kept_dropFrame s) (.refl s))

theorem kept_execFrameTransmitted {t : Nat} {boot : Boot} {s s' : State}
    (h : execFrameTransmitted t boot s = .next s') : Kept s s' := by
  refine kept_occurs h fun s => ?_
  split
  · exact .refl s
  · exact kept_replySent boot s
  · exact .after (kept_startSending _) (kept_onPort _ s id rfl)

theorem kept_execChargePresented {t : Nat} {s s' : State}
    (h : execChargePresented t s = .next s') : Kept s s' := by
  refine kept_occurs h fun s => ?_
  split
  · exact .ite (.after (kept_onPort _ _ id rfl) (kept_present _ s)) (.refl s)
  · exact .refl s

/-! ## Requests -/

theorem kept_execStatus {t : Nat} {s s' : State} (h : execStatus t s = .next s') : Kept s s' := by
  refine kept_requestOccurs h fun b s => ?_
  split <;> exact kept_reply _ _ s

theorem kept_execClearEvents {t : Nat} {s s' : State} (h : execClearEvents t s = .next s') : Kept s s' := by
  refine kept_requestOccurs h fun b s => ?_
  split
  · exact (kept_clearEvents _ s).trans (kept_reply _ _ _)
  · exact kept_reply _ _ s

theorem kept_execSetEventMask {t : Nat} {s s' : State} (h : execSetEventMask t s = .next s') : Kept s s' := by
  refine kept_requestOccurs h fun b s => ?_
  split
  · exact .after (kept_reply _ _ _) (kept_onPort _ s id rfl)
  · exact kept_reply _ _ s

theorem kept_execJournalRead {t : Nat} {s s' : State} (h : execJournalRead t s = .next s') : Kept s s' := by
  refine kept_requestOccurs h fun _ s => ?_
  split
  · exact (kept_present _ s).trans (kept_reply _ _ _)
  · exact kept_reply _ _ s

theorem kept_execJournalRewind {t : Nat} {s s' : State} (h : execJournalRewind t s = .next s') : Kept s s' :=
  kept_requestOccurs h (fun _ s => .after (kept_reply _ _ _) (kept_onJournal _ s))

theorem kept_execJournalMode {t : Nat} {s s' : State} (h : execJournalMode t s = .next s') : Kept s s' := by
  refine kept_requestOccurs h fun b s => ?_
  split
  · exact .after (kept_reply _ _ _) (kept_onJournal _ s)
  · exact kept_reply _ _ s

theorem kept_execTune {t : Nat} {s s' : State} (h : execTune t s = .next s') : Kept s s' := by
  refine kept_requestOccurs h fun b s => ?_
  split
  · exact (kept_tuneTo _ _ s).trans (kept_reply _ _ _)
  · exact kept_reply _ _ s

theorem kept_execScreenOff {t : Nat} {s s' : State} (h : execScreenOff t s = .next s') : Kept s s' := by
  refine kept_requestOccurs h fun b s => ?_
  split
  · exact (kept_switchOff _ s).trans (kept_reply _ _ _)
  · exact kept_reply _ _ s

theorem kept_execRouteHold {t : Nat} {s s' : State} (h : execRouteHold t s = .next s') : Kept s s' :=
  kept_requestOccurs h (fun _ s => .after (kept_reply _ _ _) (kept_onRouter _ s fun _ => ⟨rfl, rfl⟩))

theorem kept_execRouteRelease {t : Nat} {s s' : State} (h : execRouteRelease t s = .next s') : Kept s s' :=
  kept_requestOccurs h (fun _ s => .after (kept_reply _ _ _) (.ite (kept_endHold s) (.refl s)))

theorem kept_execRelock {t : Nat} {s s' : State} (h : execRelock t s = .next s') : Kept s s' := by
  refine kept_requestOccurs h fun b s => ?_
  split
  · exact ((kept_dropUnlocks s).trans (kept_rerunAll _)).trans (kept_reply _ _ _)
  · exact ((kept_dropUnlock _ s).trans (kept_rerunAll _)).trans (kept_reply _ _ _)
  · exact kept_reply _ _ s

theorem kept_execQuote {t : Nat} {s s' : State} (h : execQuote t s = .next s') : Kept s s' := by
  refine kept_requestOccurs h fun b s => ?_
  split <;> exact kept_reply _ _ s

theorem kept_execBuy {t : Nat} {s s' : State} (h : execBuy t s = .next s') : Kept s s' := by
  refine kept_requestOccurs h fun b s => ?_
  split
  · exact kept_reply _ _ s
  · exact .ite (kept_beginBuy _ s) (kept_reply _ _ s)

theorem kept_execCancel {t : Nat} {s s' : State} (h : execCancel t s = .next s') : Kept s s' := by
  refine kept_requestOccurs h (fun b s => .ite (kept_reply _ _ s) ?_)
  split
  · exact kept_reply _ _ s
  · exact kept_cancelOwned _ s

theorem kept_execUnlock {t : Nat} {s s' : State} (h : execUnlock t s = .next s') : Kept s s' := by
  refine kept_requestOccurs h fun b s => ?_
  split
  · exact kept_tryUnlock _ _ _ s
  · exact kept_reply _ _ s

theorem kept_execSetPin {t : Nat} {s s' : State} (h : execSetPin t s = .next s') : Kept s s' := by
  refine kept_requestOccurs h fun b s => ?_
  split
  · exact kept_trySetPin _ _ s
  · exact kept_reply _ _ s

theorem kept_execRestartStreams {t : Nat} {s s' : State}
    (h : execRestartStreams t s = .next s') : Kept s s' :=
  kept_requestOccurs h (fun _ s => (((kept_restartEngines s).trans (kept_emptyProgrammes _)).trans
    (kept_restartOutputs _)).trans (kept_reply _ _ _))

theorem kept_execSettingsWrite {t : Nat} {s s' : State}
    (h : execSettingsWrite t s = .next s') : Kept s s' := by
  refine kept_requestOccurs h fun b s => ?_
  split
  · exact kept_reply _ _ s
  · exact .ite (kept_reply _ _ s) (.after (kept_executing _) (kept_onPort _ s id rfl))

theorem kept_execProvision {t : Nat} {s s' : State} (h : execProvision t s = .next s') : Kept s s' :=
  kept_requestOccurs h (fun _ s => .ite (kept_reply _ _ s) (.ite (kept_reply _ _ s)
    (kept_beginProvision _ s)))

theorem kept_execFullReset {t : Nat} {s s' : State} (h : execFullReset t s = .next s') : Kept s s' :=
  kept_requestOccurs h (fun _ s => .after (kept_onPort _ _ id rfl) (kept_replyWith _ _ _ s))

theorem kept_execUnknownRequest {t : Nat} {s s' : State}
    (h : execUnknownRequest t s = .next s') : Kept s s' :=
  kept_occurs h (kept_beginRequest fun _ s => kept_reply _ _ s)

/-! ## Distribution cells -/

theorem kept_execMediaCell {t : Nat} {cell : List Byte} {s s' : State}
    (h : execMediaCell t cell s = .next s') : Kept s s' :=
  kept_occurs h (kept_arriveMedia cell)

theorem kept_execDescriptorCell {t : Nat} {cell : List Byte} {s s' : State}
    (h : execDescriptorCell t cell s = .next s') : Kept s s' :=
  kept_occurs h (kept_arriveDescriptor cell)

theorem kept_execManagementCell {t : Nat} {cell : List Byte} {s s' : State}
    (h : execManagementCell t cell s = .next s') : Kept s s' :=
  kept_occurs h (kept_arriveManagement cell)

theorem kept_execFiller {t : Nat} {cell : List Byte} {s s' : State}
    (h : execFiller t cell s = .next s') : Kept s s' :=
  kept_occurs h Kept.refl

/-! ## What a block held is taken -/

theorem kept_execHeldMessageTaken {t : Nat} {s s' : State}
    (h : execHeldMessageTaken t s = .next s') : Kept s s' :=
  kept_occurs h (fun s => .ite (.refl s) (kept_takeHeld (.refl s) fun b => b.2.1))

theorem kept_execWaitingMessageTaken {t : Nat} {s s' : State}
    (h : execWaitingMessageTaken t s = .next s') : Kept s s' :=
  kept_occurs h (fun s => .ite (.refl s) (kept_takeWaiting (.refl s) fun b => b.2.2.1))

theorem kept_execKeptReleaseBegin {t : Nat} {s s' : State}
    (h : execKeptReleaseBegin t s = .next s') : Kept s s' := by
  refine kept_occurs h fun s => ?_
  split
  · exact .ite (.after (kept_beginRelease _ _) (kept_onJournal _ s)) (.refl s)
  · exact .refl s

/-! ## Completions of durable writes -/

theorem kept_execNewFolioWriteComplete {t : Nat} {s s' : State}
    (h : execNewFolioWriteComplete t s = .next s') : Kept s s' := by
  refine kept_occurs h fun s => ?_
  split
  · exact kept_openFolio _ _ _ _ s
  · exact .refl s

theorem kept_execFolioUpdateWriteComplete {t : Nat} {s s' : State}
    (h : execFolioUpdateWriteComplete t s = .next s') : Kept s s' := by
  refine kept_occurs h fun s => ?_
  split
  · exact (((((kept_endRoomWrite s).trans (kept_setLimit _ _)).trans (kept_replacePin _ _)).trans
      (kept_raise _ _)).trans (kept_moneyChanged _ _)).trans (kept_lockFreed _)
  · exact .refl s

theorem kept_execLimitWriteComplete {t : Nat} {s s' : State}
    (h : execLimitWriteComplete t s = .next s') : Kept s s' := by
  refine kept_occurs h fun s => ?_
  split
  · exact (((kept_endRoomWrite s).trans (kept_setLimit _ _)).trans (kept_raise _ _)).trans
      (kept_moneyChanged _ _)
  · exact .refl s

theorem kept_execSuspendWriteComplete {t : Nat} {s s' : State}
    (h : execSuspendWriteComplete t s = .next s') : Kept s s' := by
  refine kept_occurs h fun s => ?_
  split
  · exact (((kept_setSuspended _ s).trans (kept_closeForSuspension _)).trans (kept_enginesOff _)).trans
      (kept_rerunAll _)
  · exact .refl s

theorem kept_execResumeWriteComplete {t : Nat} {s s' : State}
    (h : execResumeWriteComplete t s = .next s') : Kept s s' := by
  refine kept_occurs h fun s => ?_
  split
  · exact ((kept_setSuspended _ s).trans (kept_powerEngines _)).trans (kept_rerunAll _)
  · exact .refl s

theorem kept_execLockdownWriteComplete {t : Nat} {s s' : State}
    (h : execLockdownWriteComplete t s = .next s') : Kept s s' := by
  refine kept_occurs h fun s => ?_
  split
  · rename_i on _
    exact .after (kept_rerunAll _)
      (.ite (.after (kept_dropUnlocks _) (kept_setLockdown on s)) (kept_setLockdown on s))
  · exact .refl s

theorem kept_execCheckoutClearingComplete {t : Nat} {s s' : State}
    (h : execCheckoutClearingComplete t s = .next s') : Kept s s' := by
  refine kept_occurs h fun s => ?_
  split
  · exact kept_completeCheckOut _ s
  · exact .refl s

theorem kept_execProvisionWriteComplete {t : Nat} {s s' : State}
    (h : execProvisionWriteComplete t s = .next s') : Kept s s' := by
  refine kept_occurs h fun s => ?_
  split
  · rename_i p _
    have done := kept_endProvision p s
    exact ((Kept.ite (done.trans (kept_raise _ _)) done).trans (kept_reply _ _ _)).trans (kept_lockFreed _)
  · exact .refl s

theorem kept_execResetSerialWriteComplete {t : Nat} {serial : Nat} {boot : Boot} {s s' : State}
    (h : execResetSerialWriteComplete t serial boot s = .next s') : Kept s s' :=
  kept_occurs h (fun s => .ite (.after (kept_fullReset boot _) (kept_onStore _ s rfl id)) (.refl s))

theorem kept_execCeilingWriteComplete {t : Nat} {s s' : State}
    (h : execCeilingWriteComplete t s = .next s') : Kept s s' := by
  refine kept_occurs h fun s => ?_
  split
  · exact (((kept_durableLock _ s).trans (kept_rerunAll _)).trans (kept_judgeLapses _ _)).trans
      (kept_lockFreed _)
  · exact .refl s

theorem kept_execBarWriteComplete {t : Nat} {s s' : State}
    (h : execBarWriteComplete t s = .next s') : Kept s s' := by
  refine kept_occurs h fun s => ?_
  split
  · exact ((kept_durableLock _ s).trans (kept_rerunAll _)).trans (kept_lockFreed _)
  · exact .refl s

theorem kept_execPinResetWriteComplete {t : Nat} {s s' : State}
    (h : execPinResetWriteComplete t s = .next s') : Kept s s' := by
  refine kept_occurs h fun s => ?_
  split
  · exact ((kept_durableLock _ s).trans (kept_lockoutEnded _ _)).trans (kept_lockFreed _)
  · exact .refl s

theorem kept_execSetPinWriteComplete {t : Nat} {s s' : State}
    (h : execSetPinWriteComplete t s = .next s') : Kept s s' := by
  refine kept_occurs h fun s => ?_
  split
  · exact ((kept_durableLock _ s).trans (kept_reply _ _ _)).trans (kept_lockFreed _)
  · exact .refl s

theorem kept_execPinFailureWriteComplete {t : Nat} {s s' : State}
    (h : execPinFailureWriteComplete t s = .next s') : Kept s s' := by
  refine kept_occurs h fun s => ?_
  split
  · have failed := kept_durableLock .fail s
    exact .ite ((failed.trans (kept_reply _ _ _)).trans (kept_lockFreed _))
      (((failed.trans (kept_startLockout _)).trans (kept_reply _ _ _)).trans (kept_lockFreed _))
  · exact .refl s

theorem kept_execUnlockWriteComplete {t : Nat} {s s' : State}
    (h : execUnlockWriteComplete t s = .next s') : Kept s s' := by
  refine kept_occurs h fun s => ?_
  split
  · exact (((kept_durableLock _ s).trans (kept_grant _ _ _)).trans (kept_reply _ _ _)).trans
      (kept_lockFreed _)
  · exact .refl s

theorem kept_execLockoutClearWriteComplete {t : Nat} {s s' : State}
    (h : execLockoutClearWriteComplete t s = .next s') : Kept s s' := by
  refine kept_occurs h fun s => ?_
  split
  · exact .after (kept_lockFreed _) (.after (kept_onStore _ _ rfl id) (kept_endLockWrite s))
  · exact .refl s

theorem kept_execBuyWriteComplete {t : Nat} {s s' : State}
    (h : execBuyWriteComplete t s = .next s') : Kept s s' := by
  refine kept_occurs h fun s => ?_
  split
  · exact ((((((kept_onTurns _ s).trans (kept_sell _ _)).trans (kept_nothingPending _)).trans
      (kept_turnsAdvance _)).trans (kept_reply _ _ _)).trans (kept_rerunAll _))
  · exact .refl s

theorem kept_execCancelWriteComplete {t : Nat} {s s' : State}
    (h : execCancelWriteComplete t s = .next s') : Kept s s' := by
  refine kept_occurs h fun s => ?_
  split
  · exact ((((((kept_onTurns _ s).trans (kept_refund _ _ _)).trans (kept_nothingPending _)).trans
      (kept_turnsAdvance _)).trans (kept_reply _ _ _)).trans (kept_rerunAll _))
  · exact .refl s

theorem kept_execMeterCloseComplete {t : Nat} {service : Nat} {s s' : State}
    (h : execMeterCloseComplete t service s = .next s') : Kept s s' := by
  refine kept_occurs h fun s => ?_
  split
  · exact ((kept_onTurns _ s).trans (kept_endSession _ _ _ _)).trans (kept_afterClose _ _)
  · exact .refl s

theorem kept_execMeterWriteComplete {t : Nat} {s s' : State}
    (h : execMeterWriteComplete t s = .next s') : Kept s s' := by
  refine kept_occurs h fun s => ?_
  split
  · exact .after (kept_nextMeterWrite _) (.after (kept_onStore _ _ rfl id) (kept_onTurns _ s))
  · exact .refl s

theorem kept_execViewingWriteComplete {t : Nat} {s s' : State}
    (h : execViewingWriteComplete t s = .next s') : Kept s s' :=
  kept_occurs h (fun s => .ite
    (.after (kept_onBilling _ _ rfl rfl) (kept_onStore _ s rfl id)) (.refl s))

theorem kept_execExpiryWriteComplete {t : Nat} {title : Nat} {s s' : State}
    (h : execExpiryWriteComplete t title s = .next s') : Kept s s' := by
  refine kept_occurs h fun s => ?_
  split
  · exact kept_removeExpired _ s
  · exact .refl s

theorem kept_execPolicyWriteComplete {t : Nat} {s s' : State}
    (h : execPolicyWriteComplete t s = .next s') : Kept s s' := by
  refine kept_occurs h fun s => ?_
  split
  · have set (p : Policy) : Kept s ((s.durably fun r => { r with policy := p }).onBilling fun b =>
        { b with policyWrite := none }) :=
      .after (kept_onBilling _ _ rfl rfl) (kept_durably_same _ s (fun _ => rfl) fun _ h => h)
    exact (((set _).trans (kept_judgeLapses _ _)).trans (kept_rerunAll _)).trans (kept_nextPolicy _)
  · exact .refl s

theorem kept_execRatesWriteComplete {t : Nat} {s s' : State}
    (h : execRatesWriteComplete t s = .next s') : Kept s s' := by
  refine kept_occurs h fun s => ?_
  split
  · exact .after (kept_nextRates _) (.after (kept_onBilling _ _ rfl rfl)
      (kept_durably_same _ s (fun _ => rfl) fun _ h => h))
  · exact .refl s

theorem kept_execTierWriteComplete {t : Nat} {s s' : State}
    (h : execTierWriteComplete t s = .next s') : Kept s s' := by
  refine kept_occurs h fun s => ?_
  split
  · exact .after (kept_rerunAll _) (.after (kept_nextTiers _)
      (kept_durably_same _ s (fun _ => rfl) fun _ h => h))
  · exact .refl s

theorem kept_execReleaseWriteComplete {t : Nat} {s s' : State}
    (h : execReleaseWriteComplete t s = .next s') : Kept s s' := by
  refine kept_occurs h fun s => ?_
  split
  · exact (((((kept_onTurns _ s).trans (kept_dropReleased _ _ _)).trans (kept_occupancyFell _)).trans
      (kept_turnsAdvance _)).trans (kept_rerun _ _)).trans (kept_judgeSettling _)
  · exact .refl s

theorem kept_execPresentationWriteComplete {t : Nat} {s s' : State}
    (h : execPresentationWriteComplete t s = .next s') : Kept s s' := by
  refine kept_occurs h fun s => ?_
  split
  · exact .after (kept_nextPresentation _)
      (.after (kept_onStore _ _ rfl (journalLaw_withCounts _)) (kept_onTurns _ s))
  · exact .refl s

theorem kept_execAccessKeyInstallComplete {t : Nat} {group : Nat} {s s' : State}
    (h : execAccessKeyInstallComplete t group s = .next s') : Kept s s' := by
  refine kept_occurs h fun s => ?_
  split
  · exact (kept_setAccessKey _ _ s).trans (kept_nextAccessOp _ _)
  · exact .refl s

theorem kept_execGroupRevokeComplete {t : Nat} {group : Nat} {s s' : State}
    (h : execGroupRevokeComplete t group s = .next s') : Kept s s' := by
  refine kept_occurs h fun s => ?_
  split
  · exact ((kept_setAccessKey _ _ s).trans (kept_onKeyGroup _ _ _)).trans (kept_nextAccessOp _ _)
  · exact .refl s

theorem kept_execSettingsWriteComplete {t : Nat} {s s' : State}
    (h : execSettingsWriteComplete t s = .next s') : Kept s s' := by
  refine kept_occurs h fun s => ?_
  split
  · exact .after (kept_reply _ _ _) (.after (kept_judgeArmed _ _) (.after (kept_judgePower _ _)
      (.after (kept_onPort _ _ id rfl) (kept_durably_same _ s (fun _ => rfl) fun _ h => h))))
  · exact .refl s

/-! ## Clocks and deadlines -/

theorem kept_execTick {t : Nat} {s s' : State} (h : execTick t s = .next s') : Kept s s' :=
  kept_occurs h (fun s => .ite (kept_tick s) (.refl s))

theorem kept_execPurchaseExpiry {t : Nat} {title : Nat} {s s' : State}
    (h : execPurchaseExpiry t title s = .next s') : Kept s s' := by
  refine kept_occurs h fun s => ?_
  split
  · refine .ite (.refl s) ?_
    dsimp only
    split
    · exact .after (kept_expire _ _) (kept_onBilling _ s rfl rfl)
    · exact kept_onBilling _ s rfl rfl
  · exact .refl s

theorem kept_execBlockAccrual {t : Nat} {service : Nat} {s s' : State}
    (h : execBlockAccrual t service s = .next s') : Kept s s' := by
  refine kept_occurs h fun s => ?_
  split
  · exact .ite (kept_judgeBlock _ _ s) (kept_endAccrual _ s)
  · exact .refl s

theorem kept_execPreviewAllowanceReached {t : Nat} {title : Nat} {s s' : State}
    (h : execPreviewAllowanceReached t title s = .next s') : Kept s s' :=
  kept_occurs h (fun s => .ite (.after (kept_rerunAll _) (kept_onBilling _ s rfl rfl)) (.refl s))

theorem kept_execDayBoundary {t : Nat} {s s' : State} (h : execDayBoundary t s = .next s') : Kept s s' :=
  kept_occurs h (fun s => .ite (.after (kept_emptyDaySpend _) (kept_onTime _ s)) (.refl s))

theorem kept_execFrameBoundary {t : Nat} {s s' : State} (h : execFrameBoundary t s = .next s') : Kept s s' :=
  kept_occurs h (fun s => .ite (.ite (kept_nextBoundary s)
    ((kept_nextBoundary s).trans (kept_showAll _))) (.refl s))

theorem kept_execNoSignalDeadline {t : Nat} {service : Nat} {s s' : State}
    (h : execNoSignalDeadline t service s = .next s') : Kept s s' := by
  refine kept_occurs h fun s => ?_
  split
  · exact .ite (.after (kept_rerun _ _) (kept_onProgramme service _ s fun _ => rfl)) (.refl s)
  · exact .refl s

theorem kept_execStalenessDeadline {t : Nat} {service : Nat} {s s' : State}
    (h : execStalenessDeadline t service s = .next s') : Kept s s' := by
  refine kept_occurs h fun s => ?_
  split
  · exact .ite (.after (kept_programmeChanged _ _ _) (kept_onProgramme service _ s fun _ => rfl)) (.refl s)
  · exact .refl s

theorem kept_execNoKeyDeadline {t : Nat} {engine : EngineId} {s s' : State}
    (h : execNoKeyDeadline t engine s = .next s') : Kept s s' := by
  refine kept_occurs h fun s => ?_
  split
  · exact .ite (.after (kept_rerun _ _) (.after (kept_raise _ _) (kept_setEngine engine _ s))) (.refl s)
  · exact .refl s

theorem kept_execWarmUpEnd {t : Nat} {engine : EngineId} {s s' : State}
    (h : execWarmUpEnd t engine s = .next s') : Kept s s' := by
  refine kept_occurs h fun s => ?_
  split
  · exact .ite (((kept_endWarmUp engine s).trans (kept_promoteKeys _)).trans (kept_rerun _ _)) (.refl s)
  · exact .refl s

theorem kept_execIdleDeadline {t : Nat} {engine : EngineId} {s s' : State}
    (h : execIdleDeadline t engine s = .next s') : Kept s s' := by
  refine kept_occurs h fun s => ?_
  split
  · exact .ite (kept_setEngine _ _ s) (.refl s)
  · exact .refl s

theorem kept_execNoTitleDeadline {t : Nat} {screen : Screen} {s s' : State}
    (h : execNoTitleDeadline t screen s = .next s') : Kept s s' :=
  kept_occurs h (fun s => .ite
    (.after (kept_rerun _ _) (kept_onOutput screen _ s fun _ => ⟨rfl, rfl⟩)) (.refl s))

theorem kept_execRouteHoldDeadline {t : Nat} {s s' : State}
    (h : execRouteHoldDeadline t s = .next s') : Kept s s' :=
  kept_occurs h (fun s => .ite (kept_endHold s) (.refl s))

theorem kept_execPresenceProbe {t : Nat} {screen : Screen} {display : Bool} {s s' : State}
    (h : execPresenceProbe t screen display s = .next s') : Kept s s' :=
  kept_occurs h (fun s => .ite (kept_probe _ _ s) (.refl s))

theorem kept_execUnlockEndInstant {t : Nat} {screen : Option Screen} {s s' : State}
    (h : execUnlockEndInstant t screen s = .next s') : Kept s s' := by
  refine kept_occurs h fun s => ?_
  split
  · exact .ite (kept_endUnlock _ s) (.refl s)
  · exact .refl s

theorem kept_execLockoutDeadline {t : Nat} {s s' : State}
    (h : execLockoutDeadline t s = .next s') : Kept s s' :=
  kept_occurs h (fun s => .ite (kept_endLockout s) (.refl s))

theorem kept_execRejoinExpiry {t : Nat} {service : Nat} {s s' : State}
    (h : execRejoinExpiry t service s = .next s') : Kept s s' := by
  refine kept_occurs h fun s => ?_
  split
  · exact .ite ((kept_beginClose _ _ s).trans (kept_rerun _ _)) (.refl s)
  · exact .refl s

theorem kept_execMaintenanceWindowEnd {t : Nat} {s s' : State}
    (h : execMaintenanceWindowEnd t s = .next s') : Kept s s' :=
  kept_occurs h (fun s => .ite (kept_closeWindow s) (.refl s))

theorem kept_execFrameBegins {t : Nat} {s s' : State} (h : execFrameBegins t s = .next s') : Kept s s' :=
  kept_occurs h (fun s => .ite (kept_arriveChar _ s) (.refl s))

theorem kept_execBadLength {t : Nat} {length : Byte} {s s' : State}
    (h : execBadLength t length s = .next s') : Kept s s' :=
  kept_occurs h (fun s => .ite (kept_arriveChar _ s) (.refl s))

/-! ## The loss of power -/

theorem kept_execPowerLoss {s s' : State} (h : execPowerLoss s = .next s') : Kept s s' := by
  cases h
  exact .ite (.refl s) (kept_powerDown s)

/-! ## Every command and every step -/

/-- Every command keeps the laws of the journal, the room record and the volatile tables. -/
theorem kept_exec (c : Instr) (s s' : State) (h : exec c s = .next s') : Kept s s' := by
  cases c with
  | powerOn fastBaud maintenance boot => exact kept_execPowerOn h
  | startUpStage5 t => exact kept_execStartUpStage5 h
  | lineBreak t boot => exact kept_execLineBreak h
  | lineBreakEnd t => exact kept_execLineBreakEnd h
  | frameReceived t chars => exact kept_execFrameReceived h
  | frameGapTimeout t => exact kept_execFrameGapTimeout h
  | frameTransmitted t boot => exact kept_execFrameTransmitted h
  | chargePresented t => exact kept_execChargePresented h
  | status t => exact kept_execStatus h
  | screenStatus t => exact kept_queryOccurs h
  | lineupRead t => exact kept_queryOccurs h
  | catalogueRead t => exact kept_queryOccurs h
  | readEvents t => exact kept_queryOccurs h
  | clearEvents t => exact kept_execClearEvents h
  | setEventMask t => exact kept_execSetEventMask h
  | journalRead t => exact kept_execJournalRead h
  | journalRewind t => exact kept_execJournalRewind h
  | journalMode t => exact kept_execJournalMode h
  | settingsRead t => exact kept_queryOccurs h
  | tune t => exact kept_execTune h
  | screenOff t => exact kept_execScreenOff h
  | routeHold t => exact kept_execRouteHold h
  | routeRelease t => exact kept_execRouteRelease h
  | relock t => exact kept_execRelock h
  | quote t => exact kept_execQuote h
  | buy t => exact kept_execBuy h
  | cancel t => exact kept_execCancel h
  | unlock t => exact kept_execUnlock h
  | setPin t => exact kept_execSetPin h
  | restartStreams t => exact kept_execRestartStreams h
  | settingsWrite t => exact kept_execSettingsWrite h
  | provision t => exact kept_execProvision h
  | fullReset t => exact kept_execFullReset h
  | unknownRequest t => exact kept_execUnknownRequest h
  | mediaCell t cell => exact kept_execMediaCell h
  | descriptorCell t cell => exact kept_execDescriptorCell h
  | managementCell t cell => exact kept_execManagementCell h
  | filler t cell => exact kept_execFiller (cell := cell) h
  | checkIn t => exact kept_messageOccurs h kept_receiveRoom
  | checkOut t => exact kept_messageOccurs h kept_receiveRoom
  | setLimit t => exact kept_messageOccurs h kept_receiveRoom
  | serviceOpen t => exact kept_messageOccurs h kept_receiveRoom
  | serviceClose t => exact kept_messageOccurs h kept_receiveRoom
  | suspend t => exact kept_messageOccurs h kept_receiveRoom
  | resume t => exact kept_messageOccurs h kept_receiveRoom
  | lockdown t => exact kept_messageOccurs h kept_receiveRoom
  | pinReset t => exact kept_messageOccurs h kept_receiveLock
  | setCeiling t => exact kept_messageOccurs h kept_receiveLock
  | bar t => exact kept_messageOccurs h kept_receiveLock
  | grantTier t => exact kept_messageOccurs h (kept_receive kept_takeGrant)
  | revokeTier t => exact kept_messageOccurs h (kept_receive kept_takeRevocation)
  | groupKey t => exact kept_messageOccurs h (kept_receive kept_takeGroupKey)
  | revokeGroup t => exact kept_messageOccurs h (kept_receive kept_takeRevokeGroup)
  | releaseCharges t => exact kept_messageOccurs h (kept_receive kept_takeReleaseBody)
  | setTime t => exact kept_messageOccurs h (kept_receive kept_takeTimeBody)
  | lineup t => exact kept_messageOccurs h (kept_receive kept_takeLineupBody)
  | catalogue t => exact kept_messageOccurs h (kept_receive kept_takeCatalogueBody)
  | keyDelivery t => exact kept_messageOccurs h (kept_receive kept_takeKeyDelivery)
  | setPolicy t => exact kept_messageOccurs h (kept_receive kept_takePolicyBody)
  | setRates t => exact kept_messageOccurs h (kept_receive kept_takeRatesBody)
  | fullResetMessage t => exact kept_messageOccurs h (kept_receive kept_takeFullReset)
  | heldMessageTaken t => exact kept_execHeldMessageTaken h
  | waitingMessageTaken t => exact kept_execWaitingMessageTaken h
  | keptReleaseBegin t => exact kept_execKeptReleaseBegin h
  | newFolioWriteComplete t => exact kept_execNewFolioWriteComplete h
  | folioUpdateWriteComplete t => exact kept_execFolioUpdateWriteComplete h
  | limitWriteComplete t => exact kept_execLimitWriteComplete h
  | suspendWriteComplete t => exact kept_execSuspendWriteComplete h
  | resumeWriteComplete t => exact kept_execResumeWriteComplete h
  | lockdownWriteComplete t => exact kept_execLockdownWriteComplete h
  | checkoutClearingComplete t => exact kept_execCheckoutClearingComplete h
  | provisionWriteComplete t => exact kept_execProvisionWriteComplete h
  | resetSerialWriteComplete t serial boot => exact kept_execResetSerialWriteComplete h
  | ceilingWriteComplete t => exact kept_execCeilingWriteComplete h
  | barWriteComplete t => exact kept_execBarWriteComplete h
  | pinResetWriteComplete t => exact kept_execPinResetWriteComplete h
  | setPinWriteComplete t => exact kept_execSetPinWriteComplete h
  | pinFailureWriteComplete t => exact kept_execPinFailureWriteComplete h
  | unlockWriteComplete t => exact kept_execUnlockWriteComplete h
  | lockoutClearWriteComplete t => exact kept_execLockoutClearWriteComplete h
  | buyWriteComplete t => exact kept_execBuyWriteComplete h
  | cancelWriteComplete t => exact kept_execCancelWriteComplete h
  | meterCloseComplete t service => exact kept_execMeterCloseComplete h
  | meterWriteComplete t => exact kept_execMeterWriteComplete h
  | viewingWriteComplete t => exact kept_execViewingWriteComplete h
  | expiryWriteComplete t title => exact kept_execExpiryWriteComplete h
  | policyWriteComplete t => exact kept_execPolicyWriteComplete h
  | ratesWriteComplete t => exact kept_execRatesWriteComplete h
  | tierWriteComplete t => exact kept_execTierWriteComplete h
  | releaseWriteComplete t => exact kept_execReleaseWriteComplete h
  | presentationWriteComplete t => exact kept_execPresentationWriteComplete h
  | accessKeyInstallComplete t group => exact kept_execAccessKeyInstallComplete h
  | groupRevokeComplete t group => exact kept_execGroupRevokeComplete h
  | settingsWriteComplete t => exact kept_execSettingsWriteComplete h
  | tick t => exact kept_execTick h
  | purchaseExpiry t title => exact kept_execPurchaseExpiry h
  | blockAccrual t service => exact kept_execBlockAccrual h
  | previewAllowanceReached t title => exact kept_execPreviewAllowanceReached h
  | dayBoundary t => exact kept_execDayBoundary h
  | frameBoundary t => exact kept_execFrameBoundary h
  | noSignalDeadline t service => exact kept_execNoSignalDeadline h
  | stalenessDeadline t service => exact kept_execStalenessDeadline h
  | noKeyDeadline t engine => exact kept_execNoKeyDeadline h
  | warmUpEnd t engine => exact kept_execWarmUpEnd h
  | idleDeadline t engine => exact kept_execIdleDeadline h
  | noTitleDeadline t screen => exact kept_execNoTitleDeadline h
  | routeHoldDeadline t => exact kept_execRouteHoldDeadline h
  | presenceProbe t screen display => exact kept_execPresenceProbe h
  | unlockEndInstant t screen => exact kept_execUnlockEndInstant h
  | lockoutDeadline t => exact kept_execLockoutDeadline h
  | rejoinExpiry t service => exact kept_execRejoinExpiry h
  | maintenanceWindowEnd t => exact kept_execMaintenanceWindowEnd h
  | frameBegins t => exact kept_execFrameBegins h
  | badLength t length => exact kept_execBadLength h
  | powerLoss => exact kept_execPowerLoss h

/-- Every step keeps the laws: the command at the front of the queue does, and an idle step changes nothing. -/
theorem kept_step {s s' : State} (h : step s = .next s') : Kept s s' := by
  unfold step at h
  split at h
  · rename_i c rest _
    have taken : Kept s { s with pending := rest } := { Kept.refl s with }
    exact taken.trans (kept_exec c _ s' h)
  · cases h
    exact .refl s

/-- Settles O57: each law is one of those that `kept_step` keeps. -/
theorem everyStepKeepsTheJournalAndTheRoomRecordLawful :
    Obligations.EveryStepKeepsTheJournalAndTheRoomRecordLawful :=
  ⟨fun _ _ hcur hstore h => (kept_step h).journal ⟨hcur, hstore⟩, fun _ _ hroom h => (kept_step h).room hroom⟩

/-- Settles O58: each law is one of those that `kept_step` keeps. -/
theorem everyStepKeepsTheVolatileTablesLawful : Obligations.EveryStepKeepsTheVolatileTablesLawful :=
  ⟨fun _ _ hl h => (kept_step h).lineup hl, fun _ _ hc h => (kept_step h).catalogue hc,
    fun _ _ hb h => (kept_step h).bounds hb, fun _ _ hf h => (kept_step h).filter hf⟩

end Sys2Proof.Machine
end

section
/-! PROOF. Messages for the Room Controller and the Rating Lock: when the two are busy, what they hold, and the
order in which they take it (R4, R102; O1). -/

namespace Sys2Proof.Machine

/-! ## When the owners are busy -/

theorem any_isSale_iff (l : List TurnWrite) :
    l.any TurnWrite.isSale = true ↔
      (∃ p, TurnWrite.buy p ∈ l) ∨ ∃ p stamp, TurnWrite.cancel p stamp ∈ l := by
  rw [List.any_eq_true]
  constructor
  · rintro ⟨w, hw, hs⟩
    cases w with
    | buy p => exact .inl ⟨p, hw⟩
    | cancel p stamp => exact .inr ⟨p, stamp, hw⟩
    | close | meter | release | presentation => cases hs
  · rintro (⟨p, hw⟩ | ⟨p, stamp, hw⟩) <;> exact ⟨_, hw, rfl⟩

theorem any_isSettlingEnd_iff (l : List TurnWrite) :
    l.any TurnWrite.isSettlingEnd = true ↔ ∃ numbers cs, TurnWrite.release numbers cs true ∈ l := by
  rw [List.any_eq_true]
  constructor
  · rintro ⟨w, hw, hs⟩
    cases w with
    | release numbers cs ends => cases (hs : ends = true); exact ⟨numbers, cs, hw⟩
    | buy | cancel | close | meter | presentation => cases hs
  · rintro ⟨numbers, cs, hw⟩
    exact ⟨_, hw, rfl⟩

/-- The Room Controller is busy with a write of its own, a PROVISION's write, a check-out, a BUY or CANCEL write, or
a release write that ends the settling folio (R4, R171). -/
theorem roomBusy_iff (s : State) :
    s.roomBusy = true ↔ s.room.write ≠ none ∨ s.room.checkOut ≠ none ∨ s.port.provision ≠ none ∨
      (∃ p, TurnWrite.buy p ∈ s.turns) ∨ (∃ p stamp, TurnWrite.cancel p stamp ∈ s.turns) ∨
      ∃ numbers cs, TurnWrite.release numbers cs true ∈ s.turns := by
  simp only [State.roomBusy, Bool.or_eq_true, Option.isSome_iff_ne_none, any_isSale_iff, any_isSettlingEnd_iff]
  exact Iff.of_eq (by ac_rfl)

theorem carriesLock_iff (w : RoomWrite) :
    w.carriesLock = true ↔ (∃ folio limit pin ceiling, w = .newFolio folio limit pin ceiling) ∨
      (∃ limit pin, w = .folioUpdate limit (some pin)) ∨ ∃ settling, w = .clearing settling := by
  cases w with
  | folioUpdate limit pin => cases pin <;> simp [RoomWrite.carriesLock]
  | newFolio | clearing | limit | suspend | resume | lockdown => simp [RoomWrite.carriesLock]

theorem newRoomWriting_iff (s : State) :
    s.newRoomWriting = true ↔ ∃ p, s.port.provision = some p ∧ p.newRoom = true := by
  unfold State.newRoomWriting
  split <;> simp_all

/-- The Rating Lock is busy with a write of its own, and with a write of another owner that carries lock state
(R102). -/
theorem lockBusy_iff (s : State) :
    s.lockBusy = true ↔ s.lock.write ≠ none ∨ (∃ p, s.port.provision = some p ∧ p.newRoom = true) ∨
      ∃ w, s.room.write = some ⟨w, true⟩ ∧ w.carriesLock = true := by
  have hroom : (match s.room.write with | some op => op.begun && op.write.carriesLock | none => false) = true ↔
      ∃ w, s.room.write = some ⟨w, true⟩ ∧ w.carriesLock = true := by
    rcases s.room.write with - | ⟨w, begun⟩
    · simp
    · cases begun <;> simp
  have hbusy : s.lockBusy = (s.lock.write.isSome || (match s.room.write with
      | some op => op.begun && op.write.carriesLock
      | none => false) || s.newRoomWriting) := rfl
  rw [hbusy, Bool.or_eq_true, Bool.or_eq_true, hroom, newRoomWriting_iff, Option.isSome_iff_ne_none]
  exact Iff.of_eq (by ac_rfl)

theorem roomSettled_iff (s : State) : s.roomSettled = true ↔ s.roomBusy = false ∧ s.room.held = [] := by
  simp [State.roomSettled]

theorem lockSettled_iff (s : State) : s.lockSettled = true ↔ s.lockBusy = false ∧ s.lock.waiting = [] := by
  simp [State.lockSettled]

/-! ## A message that meets a busy owner -/

/-- The Room Controller, busy or with messages held: the message joins the held list while fewer than four are held
(R4). -/
theorem dispatch_receiveRoom_held {k : MsgKind} (t : Nat) (s : State) (scope : Scope) (issue : Nat) (body : MsgBody)
    (ha : Awaits s scope issue body) (hk : body.kind = k) (hs : s.roomSettled = false) :
    (s.atInstant t).dispatch k State.receiveRoom =
      if s.room.held.length < 4 then
        { s.receiving scope issue body t with
          room := { s.room with held := s.room.held ++ [body] } }.judgeHanded s.decoder.handed
      else (s.discarding t).judgeHanded s.decoder.handed := by
  rw [dispatch_accepted k _ (s.atInstant t) ⟨scope, issue, body⟩ ha.accepted hk]
  simp only [State.receiveRoom]
  rw [show ((s.atInstant t).onDecoder fun d => { d with accepted := none }).roomSettled = s.roomSettled from rfl,
    hs, recordIssue_at, countDrop_at]
  change (let s' : State := if s.room.held.length < 4 then _ else _; s'.judgeHanded s'.decoder.handed) = _
  split <;> rfl

/-- The Rating Lock, busy or with messages waiting: the message joins the waiting list while fewer than four wait
(R102). -/
theorem dispatch_receiveLock_waiting {k : MsgKind} (t : Nat) (s : State) (scope : Scope) (issue : Nat)
    (body : MsgBody) (ha : Awaits s scope issue body) (hk : body.kind = k) (hs : s.lockSettled = false) :
    (s.atInstant t).dispatch k State.receiveLock =
      if s.lock.waiting.length < 4 then
        { s.receiving scope issue body t with
          lock := { s.lock with waiting := s.lock.waiting ++ [body] } }.judgeHanded s.decoder.handed
      else (s.discarding t).judgeHanded s.decoder.handed := by
  rw [dispatch_accepted k _ (s.atInstant t) ⟨scope, issue, body⟩ ha.accepted hk]
  simp only [State.receiveLock]
  rw [show ((s.atInstant t).onDecoder fun d => { d with accepted := none }).lockSettled = s.lockSettled from rfl,
    hs, recordIssue_at, countDrop_at]
  change (let s' : State := if s.lock.waiting.length < 4 then _ else _; s'.judgeHanded s'.decoder.handed) = _
  split <;> rfl

/-- A message of a kind the Room Controller owns is handed to it (R41). -/
theorem exec_roomMessage : ∀ c ∈ ([(Instr.checkIn, .checkIn), (.checkOut, .checkOut), (.setLimit, .setLimit),
      (.serviceOpen, .serviceOpen), (.serviceClose, .serviceClose), (.suspend, .suspend),
      (.resume, .resume), (.lockdown, .lockdown)] : List ((Nat → Instr) × MsgKind)),
    ∀ (t : Nat) (s : State), exec (c.1 t) s = occurs t (·.dispatch c.2 .receiveRoom) s := by
  simp only [List.forall_mem_cons, List.not_mem_nil, false_implies, implies_true, and_true]
  exact ⟨fun _ _ => rfl, fun _ _ => rfl, fun _ _ => rfl, fun _ _ => rfl, fun _ _ => rfl, fun _ _ => rfl,
    fun _ _ => rfl, fun _ _ => rfl⟩

/-- A message of a kind the Rating Lock owns is handed to it (R41). -/
theorem exec_lockMessage : ∀ c ∈ ([(Instr.pinReset, .pinReset), (.setCeiling, .setCeiling), (.bar, .bar)] :
      List ((Nat → Instr) × MsgKind)),
    ∀ (t : Nat) (s : State), exec (c.1 t) s = occurs t (·.dispatch c.2 .receiveLock) s := by
  simp only [List.forall_mem_cons, List.not_mem_nil, false_implies, implies_true, and_true]
  exact ⟨fun _ _ => rfl, fun _ _ => rfl, fun _ _ => rfl⟩

/-! ## What was held is taken -/

theorem exec_heldMessageTaken {s : State} (hp : s.power ≠ .off) (t : Nat) :
    exec (.heldMessageTaken t) s =
      .next (if s.roomBusy then s.atInstant t else (s.atInstant t).takeHeld s.room.held) :=
  occurs_powered hp t fun s => if s.roomBusy then s else s.takeHeld s.room.held

theorem exec_waitingMessageTaken {s : State} (hp : s.power ≠ .off) (t : Nat) :
    exec (.waitingMessageTaken t) s =
      .next (if s.lockBusy then s.atInstant t else (s.atInstant t).takeWaiting s.lock.waiting) :=
  occurs_powered hp t fun s => if s.lockBusy then s else s.takeWaiting s.lock.waiting

theorem takeHeld_cons (m : MsgBody) (ms : List MsgBody) {s : State} (h : s.roomBusy = false) :
    s.takeHeld (m :: ms) = (s.takeRoomMessage m).takeHeld ms := by
  rw [State.takeHeld, h]
  rfl

theorem takeWaiting_cons (m : MsgBody) (ms : List MsgBody) {s : State} (h : s.lockBusy = false) :
    s.takeWaiting (m :: ms) = (s.takeLockMessage m).takeWaiting ms := by
  rw [State.takeWaiting, h]
  rfl

/-- Settles O1: the conditions of `roomBusy` and `lockBusy`, the receipt by a busy owner, and the taking of what
was held, each by its own lemma. -/
theorem busyOwnersHoldMessagesAndTakeThemInOrder : Obligations.BusyOwnersHoldMessagesAndTakeThemInOrder := by
  refine ⟨fun s => ⟨roomBusy_iff s, ?_, roomSettled_iff s, lockSettled_iff s⟩, ?_, ?_, ?_, ?_⟩
  · simp only [← carriesLock_iff]
    exact lockBusy_iff s
  · intro c hc t s scope issue body ha hk hs
    rw [exec_roomMessage c hc, occurs_powered ha.powered, dispatch_receiveRoom_held t s scope issue body ha hk hs]
  · intro c hc t s scope issue body ha hk hs
    rw [exec_lockMessage c hc, occurs_powered ha.powered,
      dispatch_receiveLock_waiting t s scope issue body ha hk hs]
  · intro t s hp
    rw [exec_heldMessageTaken hp, exec_waitingMessageTaken hp]
    refine ⟨fun h => by rw [h]; rfl, fun h m ms hm => ?_, fun h => by rw [h]; rfl, fun h m ms hm => ?_⟩
    · rw [if_neg (by simp [h]), hm, takeHeld_cons m ms (s := s.atInstant t) h]
    · rw [if_neg (by simp [h]), hm, takeWaiting_cons m ms (s := s.atInstant t) h]
  · exact fun s m ms => ⟨rfl, rfl, rfl, rfl⟩

end Sys2Proof.Machine
end

section
/-! PROOF. The Room Controller takes its messages, and the writes they begin complete (R5, R6, R11, R13 to R16, R76,
R109 to R111; O2, O3, O6, O7). -/

namespace Sys2Proof.Machine

/-! ## A message the Room Controller takes -/

theorem beginCheckOut_decoder (next : Option CheckIn) (s : State) :
    (s.beginCheckOut next).decoder = s.decoder := by
  unfold State.beginCheckOut
  rw [advanceCheckOut_decoder, (onlyVerdicts_rerunAll _).decoder]
  rfl

theorem updateFolio_decoder (limit : Nat) (pin : Option Nat) (s : State) :
    (s.updateFolio limit pin).decoder = s.decoder := by
  unfold State.updateFolio
  dsimp only
  split <;> rfl

theorem takeCheckIn_decoder (c : CheckIn) (s : State) : (s.takeCheckIn c).decoder = s.decoder := by
  unfold State.takeCheckIn
  split
  · rfl
  split
  · split
    · exact updateFolio_decoder _ _ s
    · exact beginCheckOut_decoder _ s
  · rfl

theorem takeCheckOut_decoder (folio : Nat) (s : State) : (s.takeCheckOut folio).decoder = s.decoder := by
  unfold State.takeCheckOut
  split
  · exact beginCheckOut_decoder _ s
  · rfl

theorem takeSetLimit_decoder (folio limit : Nat) (s : State) :
    (s.takeSetLimit folio limit).decoder = s.decoder := by
  unfold State.takeSetLimit
  dsimp only
  repeat' split
  all_goals rfl

theorem takeRoomMessage_decoder (m : MsgBody) (s : State) : (s.takeRoomMessage m).decoder = s.decoder := by
  unfold State.takeRoomMessage
  split
  · exact takeCheckIn_decoder _ s
  · exact takeCheckOut_decoder _ s
  · exact takeSetLimit_decoder _ _ s
  all_goals repeat' split
  all_goals rfl

/-- A command that hands a message to the Room Controller, which is not busy and holds none: the message is taken, and
what was handed over behind it is judged (R4, R41). -/
theorem exec_takesRoomMessage {c : Instr} {t : Nat} {k : MsgKind}
    (hc : ∀ s, exec c s = occurs t (·.dispatch k .receiveRoom) s) {s : State} {scope : Scope} {issue : Nat}
    {body : MsgBody} (ha : Awaits s scope issue body) (hk : body.kind = k) (hs : s.roomSettled = true) :
    exec c s =
      .next (((s.receiving scope issue body t).takeRoomMessage body).judgeHanded s.decoder.handed) := by
  rw [hc, occurs_powered ha.powered, dispatch_receiveRoom t s scope issue body ha hk hs, takeRoomMessage_decoder]
  rfl

/-! ## The maintenance window (R16) -/

/-- Settles O6: the window opens and closes as the messages and its end instant say. -/
theorem maintenanceWindowOpensAndCloses : Obligations.MaintenanceWindowOpensAndCloses := by
  refine ⟨fun t s scope issue minutes ha hs => ?_, fun t s scope issue ha hs => ?_, fun t ends s hp hw => ?_⟩
  · exact exec_takesRoomMessage (c := .serviceOpen t) (fun _ => rfl) ha rfl hs
  · rw [exec_takesRoomMessage (c := .serviceClose t) (fun _ => rfl) ha rfl hs]
    congr 2
    change (if s.room.windowEnd.isSome then _ else _) = _
    cases s.room.windowEnd <;> rfl
  · rw [show exec (.maintenanceWindowEnd t) s =
        occurs t (fun s => if due s.room.windowEnd s then s.closeWindow else s) s from rfl, occurs_powered hp]
    have hdue : due (s.atInstant t).room.windowEnd (s.atInstant t) = decide (ends ≤ max s.time.now t) := by
      change due s.room.windowEnd (s.atInstant t) = _
      rw [hw]
      rfl
    rw [hdue]
    simp only [decide_eq_true_eq]
    rfl

/-! ## The spend limit (R6, R13, R85) -/

theorem occupied_iff (s : State) :
    s.occupied = true ↔ s.cur.room.state = .occupied ∧ s.room.checkOut = none := by
  simp [State.occupied]

theorem moneyChanged_of_same {s before : State} (hlimit : s.cur.room.limit = before.cur.room.limit)
    (hspend : s.cur.room.spend = before.cur.room.spend) : s.moneyChanged before = s :=
  if_pos ⟨hlimit, hspend⟩

theorem moneyChanged_of_limit {s before : State} (hlimit : s.cur.room.limit ≠ before.cur.room.limit) :
    s.moneyChanged before = s.rerun s.moneySlated :=
  if_neg fun h => hlimit h.1

/-- What follows the completion of a write that carries a limit (R85). -/
theorem moneyChanged_told {s before : State} {limit : Nat} (hlimit : s.cur.room.limit = limit)
    (hspend : s.cur.room.spend = before.cur.room.spend) :
    if limit = before.cur.room.limit then s.moneyChanged before = s
    else Reran s.moneySlated s (s.moneyChanged before) := by
  split
  · rename_i h
    exact moneyChanged_of_same (hlimit.trans h) hspend
  · rename_i h
    rw [moneyChanged_of_limit (by rwa [hlimit])]
    exact reran_rerun _ _

/-- A PIN that a write carries is in use and durable; with none carried the PIN stays (R6). -/
theorem replacePin_eq (pin : Option Nat) (s : State) :
    s.replacePin pin = s.durably fun r => { r with lock := { r.lock with
      pin := if pin = none then r.lock.pin else pin } } := by
  cases pin <;> rfl

/-- Settles O3: the clamp as SET_LIMIT is taken, and as its write and a folio update's complete. -/
theorem limitStaysAtOrAboveTheSpendFloor : Obligations.LimitStaysAtOrAboveTheSpendFloor := by
  refine ⟨fun t s scope issue folio limit ha hs => ?_, fun t s w limit pin hp hw => ⟨?_, ?_⟩⟩
  · rw [exec_takesRoomMessage (c := .setLimit t) (fun _ => rfl) ha rfl hs]
    congr 2
    have hoccupied := occupied_iff (s.receiving scope issue (.setLimit folio limit) t)
    simp only [State.takeRoomMessage, State.takeSetLimit, hoccupied, and_assoc]
    rfl
  · rintro rfl
    rw [show exec (.limitWriteComplete t) s = execLimitWriteComplete t s from rfl, execLimitWriteComplete,
      occurs_powered hp, roomWriteInFlight_of t hw]
    exact ⟨_, rfl, moneyChanged_told rfl rfl⟩
  · rintro rfl
    rw [show exec (.folioUpdateWriteComplete t) s = execFolioUpdateWriteComplete t s from rfl,
      execFolioUpdateWriteComplete, occurs_powered hp, roomWriteInFlight_of t hw]
    refine ⟨_, rfl, ?_⟩
    rw [replacePin_eq]
    exact moneyChanged_told (before := s.atInstant t) rfl rfl

/-! ## Suspension and lockdown (R14, R15, R76, R111) -/

theorem closingWith_iff (s : State) (cause : CloseCause) :
    s.closingWith cause = true ↔ ∃ x ∈ s.cur.meter, x.closing = some cause := by
  simp [State.closingWith]

theorem closingWith_false (s : State) (cause : CloseCause) :
    s.closingWith cause = false ↔ ∀ x ∈ s.cur.meter, x.closing ≠ some cause := by
  simp [State.closingWith]

/-- The closes of a suspension that are still to begin: a service is passed over that has no open session. -/
def State.standsOpen (s : State) (n : Nat) : Bool :=
  match s.session n with
  | some x => x.closing.isNone
  | none => false

theorem standsOpen_iff (s : State) (n : Nat) :
    s.standsOpen n = true ↔ ∃ x, s.session n = some x ∧ x.closing = none := by
  unfold State.standsOpen
  split <;> simp_all

/-- A suspension marks the sessions that are open and not closing, and begins the first close (R14). -/
theorem closeForSuspension_eq (on : Bool) (s : State) :
    (s.setSuspended on).closeForSuspension =
      ({ s.setSuspended on with billing := { s.billing with
        suspendCloses := (s.cur.meter.filter fun x => x.closing.isNone).map (·.service) } } : State).advanceSuspend :=
  congrArg State.advanceSuspend rfl

/-- Every engine is OFF, no output holds one, and nothing waits (R76). -/
theorem enginesOff_eq (s : State) :
    s.enginesOff = ({ s with
      pool := ⟨⟨.off, .off, .off⟩, []⟩
      router := { s.router with outputs := s.router.outputs.map .unhold } } : State).promoteKeys :=
  congrArg State.promoteKeys rfl

theorem advanceSuspend_eq (s : State) :
    s.advanceSuspend =
      if s.closingWith .suspend then s
      else
        match s.billing.suspendCloses.find? s.standsOpen with
        | some n =>
          (s.onBilling fun b =>
            { b with suspendCloses := b.suspendCloses.filter (· != n) }).beginClose n .suspend
        | none => s.onBilling fun b => { b with suspendCloses := [] } := rfl

theorem advanceSuspend_none {s : State} (hclosing : s.closingWith .suspend = false)
    (h : ∀ n ∈ s.billing.suspendCloses, ¬ s.standsOpen n = true) :
    s.advanceSuspend = s.onBilling fun b => { b with suspendCloses := [] } := by
  rw [advanceSuspend_eq, hclosing, List.find?_eq_none.2 h]
  rfl

theorem advanceSuspend_next {s : State} (hclosing : s.closingWith .suspend = false) {before after : List Nat}
    {n : Nat} (hl : s.billing.suspendCloses = before ++ n :: after)
    (hbefore : ∀ m ∈ before, ¬ s.standsOpen m = true) (hn : s.standsOpen n = true) :
    s.advanceSuspend = (s.onBilling fun b =>
      { b with suspendCloses := b.suspendCloses.filter (· != n) }).beginClose n .suspend := by
  have hfind : s.billing.suspendCloses.find? s.standsOpen = some n := by
    rw [hl, List.find?_append, List.find?_eq_none.2 hbefore, List.find?_cons_of_pos hn]
    rfl
  rw [advanceSuspend_eq, hclosing, hfind]
  rfl

/-- Settles O7: the messages, their writes' completions, and the closes of a suspension one at a time. -/
theorem roomFlagsChangeAtTheirWritesCompletion : Obligations.RoomFlagsChangeAtTheirWritesCompletion := by
  refine ⟨fun t s scope issue body ha hs => ⟨?_, ?_, fun on => ?_⟩,
    fun t s w hp hw => ⟨?_, ?_, fun on => ?_⟩, fun s => ⟨fun h => ?_, fun h => ⟨fun hnone => ?_, ?_⟩⟩⟩
  · rintro rfl
    exact exec_takesRoomMessage (c := .suspend t) (fun _ => rfl) ha rfl hs
  · rintro rfl
    exact exec_takesRoomMessage (c := .resume t) (fun _ => rfl) ha rfl hs
  · rintro rfl
    exact exec_takesRoomMessage (c := .lockdown t) (fun _ => rfl) ha rfl hs
  · rintro rfl
    rw [show exec (.suspendWriteComplete t) s = execSuspendWriteComplete t s from rfl, execSuspendWriteComplete,
      occurs_powered hp, roomWriteInFlight_of t hw]
    refine ⟨_, rfl, ?_⟩
    dsimp only
    rw [closeForSuspension_eq, enginesOff_eq]
    exact reran_rerun _ _
  · rintro rfl
    rw [show exec (.resumeWriteComplete t) s = execResumeWriteComplete t s from rfl, execResumeWriteComplete,
      occurs_powered hp, roomWriteInFlight_of t hw]
    exact ⟨_, rfl, reran_rerun _ _⟩
  · rintro rfl
    rw [show exec (.lockdownWriteComplete t) s = execLockdownWriteComplete t s from rfl,
      execLockdownWriteComplete, occurs_powered hp, roomWriteInFlight_of t hw]
    refine ⟨_, rfl, ?_⟩
    cases on <;> exact reran_rerun _ _
  · rw [advanceSuspend_eq, if_pos ((closingWith_iff s _).2 h)]
  · exact advanceSuspend_none ((closingWith_false s _).2 h) fun n hn => by
      rw [standsOpen_iff]
      exact hnone n hn
  · intro before n after hl hbefore hn
    exact advanceSuspend_next ((closingWith_false s _).2 h) hl
      (fun m hm => by rw [standsOpen_iff]; exact hbefore m hm) ((standsOpen_iff s n).2 hn)

/-! ## CHECK_IN (R5, R6, R11) -/

theorem holdsFolio_iff (s : State) (folio : Nat) :
    s.holdsFolio folio = true ↔ ∃ r ∈ s.cur.records, r.folio = folio := by
  simp [State.holdsFolio]

/-- A CHECK_IN that is ignored (R5): for folio 0, for the settling folio, or for a folio that is not the current one
and that the journal holds a record of. -/
def CheckIn.Ignored (c : CheckIn) (s : State) : Prop :=
  c.folio = 0 ∨ s.cur.room.settling = some c.folio ∨
    (s.cur.room.folio ≠ some c.folio ∧ ∃ r ∈ s.cur.records, r.folio = c.folio)

theorem takeCheckIn_ignored {c : CheckIn} {s : State} (h : c.Ignored s) :
    s.takeCheckIn c = s.raise .property := by
  unfold CheckIn.Ignored at h
  rw [← holdsFolio_iff] at h
  exact if_pos h

theorem takeCheckIn_taken {c : CheckIn} {s : State} (h : ¬ c.Ignored s) :
    s.takeCheckIn c =
      if s.cur.room.state = .occupied then
        if s.cur.room.folio = some c.folio then s.updateFolio c.limit c.pin else s.beginCheckOut (some c)
      else s.beginNewFolio c := by
  unfold CheckIn.Ignored at h
  rw [← holdsFolio_iff] at h
  exact if_neg h

theorem takeCheckIn_new {c : CheckIn} {s : State} (h : ¬ c.Ignored s) (ho : s.cur.room.state ≠ .occupied) :
    s.takeCheckIn c = s.beginNewFolio c := by
  rw [takeCheckIn_taken h, if_neg ho]

theorem takeCheckIn_same {c : CheckIn} {s : State} (h : ¬ c.Ignored s) (ho : s.cur.room.state = .occupied)
    (hf : s.cur.room.folio = some c.folio) : s.takeCheckIn c = s.updateFolio c.limit c.pin := by
  rw [takeCheckIn_taken h, if_pos ho, if_pos hf]

theorem takeCheckIn_other {c : CheckIn} {s : State} (h : ¬ c.Ignored s) (ho : s.cur.room.state = .occupied)
    (hf : s.cur.room.folio ≠ some c.folio) : s.takeCheckIn c = s.beginCheckOut (some c) := by
  rw [takeCheckIn_taken h, if_pos ho, if_neg hf]

/-- Settles O2: the four outcomes of a CHECK_IN, and the completion of a new folio's write. -/
theorem checkInOpensOrUpdatesAFolio : Obligations.CheckInOpensOrUpdatesAFolio := by
  refine ⟨fun t s scope issue folio limit pin ha hs => ?_, fun t s folio limit ceiling pin hp hw => ?_⟩
  · refine ⟨(s.receiving scope issue (.checkIn folio limit pin) t).takeCheckIn ⟨folio, limit, pin⟩,
      exec_takesRoomMessage (c := .checkIn t) (fun _ => rfl) ha rfl hs, ?_⟩
    dsimp only
    split
    case isTrue h => exact takeCheckIn_ignored h
    case isFalse h =>
      split
      case isTrue ho => exact takeCheckIn_new h ho
      case isFalse ho =>
        have ho := not_not.1 ho
        split
        case isTrue hf => exact takeCheckIn_same h ho hf
        case isFalse hf => exact ⟨_, reran_rerun _ _, takeCheckIn_other h ho hf⟩
  · rw [show exec (.newFolioWriteComplete t) s = execNewFolioWriteComplete t s from rfl,
      execNewFolioWriteComplete, occurs_powered hp, roomWriteInFlight_of t hw]
    exact ⟨_, rfl, lapsedAndReran_rerun _ _ _⟩

end Sys2Proof.Machine
end

section
/-! PROOF. The check-out: its closes, the clearing write and its completion (R7, R8, R9, R11, R14; O4, O5). -/

namespace Sys2Proof.Machine

/-! ## The stages of a check-out (R8, R14) -/

theorem advanceCheckOut_idle {s : State} (h : s.room.checkOut = none ∨ s.room.write ≠ none) :
    s.advanceCheckOut = s := by
  refine if_neg fun hh => ?_
  obtain ⟨hc, hw⟩ := Bool.and_eq_true_iff.1 hh
  rcases h with h | h
  · exact absurd hc (by simp [h])
  · exact h (Option.isNone_iff_eq_none.1 hw)

/-- A check-out in progress with no write of the Room Controller's: the clearing write with no session left, and else
the next close, one at a time. -/
theorem advanceCheckOut_active {s : State} (hc : s.room.checkOut.isSome = true) (hw : s.room.write = none) :
    s.advanceCheckOut =
      if s.cur.meter.isEmpty then s.beginRoomWrite (.clearing s.settlesAs)
      else if s.closingWith .checkOut then s
      else s.closeOldest .checkOut fun x => !(s.billing.suspendCloses.contains x.service) :=
  if_pos (by simp [hc, hw])

/-- A session the check-out closes: it is open, and no suspension closes it (R14). -/
theorem checkOutCloses_iff (s : State) (x : Session) :
    (!(s.billing.suspendCloses.contains x.service) && x.closing.isNone) = true ↔
      ¬ (x.closing ≠ none ∨ x.service ∈ s.billing.suspendCloses) := by
  simp only [Bool.and_eq_true, Bool.not_eq_true', List.contains_eq_mem, decide_eq_false_iff_not,
    Option.isNone_iff_eq_none]
  tauto

theorem closeOldest_none {s : State} {cause : CloseCause} {p : Session → Bool}
    (h : ∀ x ∈ s.cur.meter, ¬ (p x && x.closing.isNone) = true) : s.closeOldest cause p = s := by
  unfold State.closeOldest
  rw [List.find?_eq_none.2 h]

theorem closeOldest_some {s : State} {cause : CloseCause} {p : Session → Bool} {before after : List Session}
    {x : Session} (hl : s.cur.meter = before ++ x :: after)
    (hbefore : ∀ y ∈ before, ¬ (p y && y.closing.isNone) = true) (hx : (p x && x.closing.isNone) = true) :
    s.closeOldest cause p = s.beginClose x.service cause := by
  have hfind : s.cur.meter.find? (fun x => p x && x.closing.isNone) = some x := by
    rw [hl, List.find?_append, List.find?_eq_none.2 hbefore]
    simp only [List.find?_cons, hx, Option.none_or]
  unfold State.closeOldest
  rw [hfind]

/-- The journal holds a record of a folio that is open. -/
def State.HoldsSome (s : State) (folio : Option Nat) : Prop := ∃ f, folio = some f ∧ ∃ r ∈ s.cur.records, r.folio = f

theorem filter_holdsFolio (s : State) {folio : Option Nat} :
    (s.HoldsSome folio → folio.filter s.holdsFolio = folio) ∧
      (¬ s.HoldsSome folio → folio.filter s.holdsFolio = none) := by
  constructor
  · rintro ⟨f, rfl, h⟩
    exact Option.filter_some_pos ((holdsFolio_iff s f).2 h)
  · intro h
    refine Option.filter_eq_none_iff.2 fun f hf hh => h ⟨f, hf, (holdsFolio_iff s f).1 hh⟩

/-- The settling folio stage 2 chooses (R9): the departing folio, else the present settling folio, where the journal
holds records of it. -/
theorem settlesAs_cases (s : State) :
    (s.HoldsSome s.cur.room.folio → s.settlesAs = s.cur.room.folio) ∧
      (¬ s.HoldsSome s.cur.room.folio → s.HoldsSome s.cur.room.settling → s.settlesAs = s.cur.room.settling) ∧
      (¬ s.HoldsSome s.cur.room.folio → ¬ s.HoldsSome s.cur.room.settling → s.settlesAs = none) := by
  unfold State.settlesAs
  refine ⟨fun h => ?_, fun h k => ?_, fun h k => ?_⟩
  · obtain ⟨f, hf, -⟩ := id h
    rw [(filter_holdsFolio s).1 h, hf]
    rfl
  · rw [(filter_holdsFolio s).2 h, (filter_holdsFolio s).1 k]
    rfl
  · rw [(filter_holdsFolio s).2 h, (filter_holdsFolio s).2 k]
    rfl

/-- The clearing write waits for a write of the Rating Lock's own (R102). -/
theorem beginRoomWrite_clearing (settling : Option Nat) (s : State) :
    s.beginRoomWrite (.clearing settling) =
      { s with room := { s.room with write := some ⟨.clearing settling, s.lock.write.isNone⟩ } } := by
  have : (!(true && s.ownLockBusy)) = s.lock.write.isNone := by
    simp [State.ownLockBusy]
  rw [← this]
  rfl

theorem takeCheckOut_current {folio : Nat} {s : State}
    (h : s.cur.room.state = .occupied ∧ s.cur.room.folio = some folio) :
    s.takeCheckOut folio = s.beginCheckOut none := if_pos h

theorem takeCheckOut_ignored {folio : Nat} {s : State}
    (h : ¬ (s.cur.room.state = .occupied ∧ s.cur.room.folio = some folio)) :
    s.takeCheckOut folio = s.raise .property := if_neg h

/-- Settles O4: the message, and the stages of a check-out in progress. -/
theorem checkOutClosesSessionsThenClears : Obligations.CheckOutClosesSessionsThenClears := by
  refine ⟨fun t s scope issue folio ha hs => ?_, fun s => advanceCheckOut_idle, fun s hc hw => ?_⟩
  · refine ⟨(s.receiving scope issue (.checkOut folio) t).takeCheckOut folio,
      exec_takesRoomMessage (c := .checkOut t) (fun _ => rfl) ha rfl hs, ?_⟩
    dsimp only
    split
    case isTrue h => exact ⟨_, reran_rerun _ _, takeCheckOut_current h⟩
    case isFalse h => exact takeCheckOut_ignored h
  · rw [advanceCheckOut_active hc hw]
    refine ⟨fun hm => ⟨s.settlesAs, ?_, settlesAs_cases s⟩, fun hm hleft => ?_, fun hm hclosing => ?_, ?_⟩
    · rw [if_pos (by simp [hm]), beginRoomWrite_clearing]
    · rw [if_neg (by simpa using hm)]
      split
      · rfl
      · exact closeOldest_none fun x hx h => (checkOutCloses_iff s x).1 h (hleft x hx)
    · rw [if_neg (by simpa using hm), if_pos ((closingWith_iff s _).2 hclosing)]
    · intro before after x hl hnone hbefore hopen hx
      rw [if_neg (by simp [hl]), if_neg (by simpa using (closingWith_false s _).2 hnone)]
      exact closeOldest_some hl (fun y hy h => (checkOutCloses_iff s y).1 h (hbefore y hy))
        ((checkOutCloses_iff s x).2 (by simp [hopen, hx]))

/-! ## The completion of the clearing write (R8, R9, R11) -/

theorem departed_eq (settling : Option Nat) (r : RoomRecord) :
    r.departed settling =
      { r with
        state := if settling = none then .vacant else .settling
        folio := none, settling := settling, limit := 0, spend := 0, count := 0 } := by
  cases settling <;> rfl

theorem isGuestKind_iff (k : Byte) : isGuestKind k = true ↔ 0x11 ≤ k.toNat ∧ k.toNat ≤ 0x15 := by
  simp [isGuestKind]

/-- A GUEST request that has not begun stands at the head of the intake. -/
def State.GuestAtHead (s : State) : Prop :=
  ∃ r rest, s.port.intake = r :: rest ∧ 0x11 ≤ r.kind.toNat ∧ r.kind.toNat ≤ 0x15 ∧ s.port.executing = false

theorem markGuestWaits_guest {s : State} (h : s.GuestAtHead) :
    s.markGuestWaits = { s with port := { s.port with guestWaits := true } } := by
  obtain ⟨r, rest, hi, hlow, hhigh, hexecuting⟩ := h
  unfold State.markGuestWaits
  rw [hi]
  exact if_pos (by simp [(isGuestKind_iff _).2 ⟨hlow, hhigh⟩, hexecuting])

theorem markGuestWaits_other {s : State} (h : ¬ s.GuestAtHead) : s.markGuestWaits = s := by
  unfold State.markGuestWaits
  split
  · rename_i r rest hi
    refine if_neg fun hk => h ?_
    simp only [Bool.and_eq_true, Bool.not_eq_true'] at hk
    obtain ⟨hlow, hhigh⟩ := (isGuestKind_iff _).1 hk.1
    exact ⟨r, rest, hi, hlow, hhigh, hk.2⟩
  · rfl

/-- Settles O5: what the clearing write carries, and the stage of the check-out that follows it. -/
theorem clearingWriteLeavesTheSettlingFolioOfR9 : Obligations.ClearingWriteLeavesTheSettlingFolioOfR9 := by
  refine ⟨fun t s settling next hp hw hnext => ?_, fun s => ⟨markGuestWaits_guest, markGuestWaits_other⟩⟩
  rw [show exec (.checkoutClearingComplete t) s = execCheckoutClearingComplete t s from rfl,
    execCheckoutClearingComplete, occurs_powered hp, roomWriteInFlight_of t hw]
  dsimp only
  unfold State.completeCheckOut
  rw [show (s.atInstant t).room.checkOut.getD none = next by
    change s.room.checkOut.getD none = next
    rw [hnext]
    rfl]
  refine ⟨_, ?_, reran_rerun _ _⟩
  unfold State.clearFolio
  simp only [departed_eq]
  cases next <;> rfl

end Sys2Proof.Machine
end

section
/-! PROOF. The releases of the Charge Journal, and what a settling folio keeps (R12, R149, R154 to R156; O41). -/

namespace Sys2Proof.Machine

/-! ## When a release may begin, and what it names (R155, R156) -/

/-- Nothing keeps a release back: no write that changes the journal, and the Room Controller settled (R155). -/
theorem releaseFree_iff (s : State) :
    s.releaseFree = true ↔ (∀ w ∈ s.turns, w.isJournal = false) ∧ s.roomSettled = true := by
  simp [State.releaseFree, State.journalBusy]

theorem occupancyFell_eq (s : State) :
    s.occupancyFell =
      if s.cur.records.length + s.cur.reserved < s.cur.settings.highMark then
        { s with journal := { s.journal with armed := true } }
      else s := by
  unfold State.occupancyFell
  simp only [decide_eq_true_eq]
  rfl

theorem beginRelease_decoder (n : Nat) (s : State) : (s.beginRelease n).decoder = s.decoder := by
  unfold State.beginRelease
  dsimp only
  split <;> rfl

theorem takeRelease_decoder (n : Nat) (s : State) : (s.takeRelease n).decoder = s.decoder := by
  unfold State.takeRelease
  split
  · rfl
  · split
    · exact beginRelease_decoder n s
    · rfl

/-- The records a release may name are those from the oldest up to the first that stays (R156). -/
theorem releasable_append {n : Nat} {gone kept : List ChargeRecord}
    (hgone : ∀ r ∈ gone, r.number ≤ n ∧ 1 ≤ r.presented)
    (hkept : ∀ r, kept.head? = some r → n < r.number ∨ r.presented = 0) :
    releasable n (gone ++ kept) = gone := by
  unfold releasable
  rw [List.takeWhile_append_of_pos fun r hr => by simpa using hgone r hr]
  cases kept with
  | nil => simp
  | cons r rest =>
    have hstays : (decide (r.number ≤ n) && decide (1 ≤ r.presented)) = false := by
      rcases hkept r rfl with h | h
      · simp [h]
      · simp [h]
    simp [hstays]

theorem settlingEnds_iff (r : RoomRecord) (records : List ChargeRecord) :
    settlingEnds r records = true ↔ ∃ f, r.settling = some f ∧ ∀ x ∈ records, x.folio ≠ f := by
  unfold settlingEnds
  cases r.settling <;> simp

/-- A release with its records told apart (R156). -/
theorem beginRelease_append {n : Nat} {s : State} {gone kept : List ChargeRecord}
    (hr : s.cur.records = gone ++ kept) (hgone : ∀ r ∈ gone, r.number ≤ n ∧ 1 ≤ r.presented)
    (hkept : ∀ r, kept.head? = some r → n < r.number ∨ r.presented = 0) :
    s.beginRelease n =
      if gone = [] then s
      else s.fallDue (.release (gone.map fun r => r.number) (kept.map fun r => (r.number, r.presented))
        (decide (∃ f, s.cur.room.settling = some f ∧ ∀ r ∈ kept, r.folio ≠ f))) := by
  unfold State.beginRelease
  rw [hr, releasable_append hgone hkept]
  simp only [List.drop_left, ← settlingEnds_iff, Bool.decide_eq_true]
  rfl

/-! ## The end of a settling folio (R12) -/

/-- The settling folio ends, in use and durably, and PROPERTY is raised. -/
def State.settlingEnded (s : State) : State := (s.durably (.onRoom .endSettling)).raise .property

/-- R12, told after a release: the folio settles on, or ends, and then a room that was SETTLING is VACANT and every
verdict is run (R3). -/
theorem judgeSettling_cases {s : State} {room : RoomRecord} {records : List ChargeRecord} (hroom : s.cur.room = room)
    (hrecords : s.cur.records = records) :
    let settled : Prop := ∃ f, room.settling = some f ∧ ∀ r ∈ records, r.folio ≠ f
    (¬ settled → s.judgeSettling = s) ∧
      (settled → room.state ≠ .settling → s.judgeSettling = s.settlingEnded) ∧
      (settled → room.state = .settling → Reran allScreens s.settlingEnded s.judgeSettling) := by
  subst hroom hrecords
  dsimp only
  rw [← settlingEnds_iff]
  refine ⟨fun h => if_neg h, fun h hs => (if_pos h).trans (if_neg hs), fun h hs => ?_⟩
  rw [show s.judgeSettling = s.settlingEnded.rerunAll from (if_pos h).trans (if_pos hs)]
  exact reran_rerun _ _

theorem occupancyFell_cur (s : State) : s.occupancyFell.cur = s.cur := by
  unfold State.occupancyFell
  split <;> rfl

/-- The completion of the release write in flight: the removals, then the runs and what becomes of the settling folio. -/
theorem exec_releaseWriteComplete {t : Nat} {s : State} {numbers : List Nat} {cs : List Count} {ends : Bool}
    {rest : List TurnWrite} (hp : s.power ≠ .off)
    (hw : takeBegun TurnWrite.isRelease false false s.turns = some (.release numbers cs ends, rest)) :
    exec (.releaseWriteComplete t) s = .next (
      let dropped := (((s.atInstant t).onTurns fun _ => rest).dropReleased numbers cs).occupancyFell.turnsAdvance
      (dropped.rerun dropped.moneySlated).judgeSettling) := by
  rw [show exec (.releaseWriteComplete t) s = execReleaseWriteComplete t s from rfl, execReleaseWriteComplete,
    occurs_powered hp]
  simp only [show takeBegun TurnWrite.isRelease false false (s.atInstant t).turns = some (.release numbers cs ends, rest)
    from hw]

/-- Settles O41: the message, the release kept, the write a release begins, and the completions of the journal's own
writes. -/
theorem releaseRemovesPresentedRecordsOnly : Obligations.ReleaseRemovesPresentedRecordsOnly := by
  refine ⟨occupancyFell_eq, fun t s scope issue n ha => ?_, fun t n s hp hk => ?_,
    fun n s gone kept hr hgone hkept => beginRelease_append hr hgone hkept,
    fun t s numbers cs ends rest hp hw => ?_, fun t s cs rest hp hw => ?_⟩
  · rw [show exec (.releaseCharges t) s = execReleaseCharges t s from rfl, execReleaseCharges, occurs_powered ha.powered,
      dispatch_receive (k := .releaseCharges) t s scope issue _ ha rfl]
    dsimp only [State.takeReleaseBody]
    rw [takeRelease_decoder]
    simp only [← releaseFree_iff]
    rfl
  · rw [show exec (.keptReleaseBegin t) s = execKeptReleaseBegin t s from rfl, execKeptReleaseBegin, occurs_powered hp]
    simp only [← releaseFree_iff, show (s.atInstant t).journal.kept = some n from hk]
    rfl
  · intro left s₀ s₁
    have hran := reran_rerun s₁.moneySlated s₁
    have hcur : s₁.cur = { s.cur with records := left s.cur.records } := occupancyFell_cur s₀
    refine ⟨s₁.rerun s₁.moneySlated, hran, (s₁.rerun s₁.moneySlated).judgeSettling, exec_releaseWriteComplete hp hw, ?_⟩
    generalize s₁.rerun s₁.moneySlated = s₂ at hran
    refine judgeSettling_cases ?_ ?_
    · rw [hran.cur, hcur]
    · rw [hran.cur, hcur]
  · rw [show exec (.presentationWriteComplete t) s = execPresentationWriteComplete t s from rfl,
      execPresentationWriteComplete, occurs_powered hp]
    simp only [show takeBegun TurnWrite.isPresentation false false (s.atInstant t).turns = some (.presentation cs, rest)
      from hw]
    rfl

end Sys2Proof.Machine
end

section
/-! PROOF. The access mode, the beginning of a request, and PROVISION (R17, R18, R60, R162, R163, R171; O45, O49). -/

namespace Sys2Proof.Machine

/-! ## The access mode and its groups (R17) -/

theorem mode_lockdown_iff (s : State) : s.mode = .lockdown ↔ s.cur.room.lockdown = true := by
  unfold State.mode
  split
  case isTrue h => simp [h]
  case isFalse h => split <;> simp [h]

theorem mode_maintenance_iff (s : State) :
    s.mode = .maintenance ↔
      s.cur.room.lockdown = false ∧ (s.room.windowEnd ≠ none ∨ s.cur.room.roomId = 0) := by
  unfold State.mode
  split
  case isTrue h => simp [h]
  case isFalse h => simp [h, Option.isSome_iff_ne_none, or_iff_not_imp_left]

theorem mode_normal_iff (s : State) :
    s.mode = .normal ↔ s.cur.room.lockdown = false ∧ s.room.windowEnd = none ∧ s.cur.room.roomId ≠ 0 := by
  unfold State.mode
  split
  case isTrue h => simp [h]
  case isFalse h => simp [h]

theorem modeTakes_notLockdown_iff (s : State) :
    (s.modeTakes .guest = true ↔ s.mode ≠ .lockdown) ∧ (s.modeTakes .restart = true ↔ s.mode ≠ .lockdown) := by
  simp [State.modeTakes]

theorem modeTakes_service_iff (s : State) : s.modeTakes .service = true ↔ s.mode = .maintenance := by
  simp [State.modeTakes]

/-! ## When a request begins (R162, R163) -/

theorem canBegin_iff (s : State) :
    s.canBegin = true ↔ s.port.opened = true ∧ s.port.executing = false ∧ s.port.resetOwed = false ∧
      (s.port.outbound.filter fun f => !f.error).length < 8 := by
  simp [State.canBegin, and_assoc]

theorem isLockKind_iff (k : Byte) : isLockKind k = true ↔ k = 0x14 ∨ k = 0x15 := by
  simp [isLockKind]

theorem accessOpInFlight_iff (s : State) : s.accessOpInFlight = true ↔ ∃ g ∈ s.keys, g.inFlight ≠ none := by
  simp [State.accessOpInFlight, Option.isSome_iff_ne_none]

theorem heldBack_iff (s : State) (k : Byte) :
    s.heldBack k = true ↔
      (0x11 ≤ k.toNat ∧ k.toNat ≤ 0x15 ∧
        (s.room.checkOut ≠ none ∨ s.port.guestWaits = true ∧ s.roomSettled = false)) ∨
      ((k = 0x14 ∨ k = 0x15) ∧ s.lockSettled = false) ∨
      (k = 0x18 ∧ ((∃ g ∈ s.keys, g.inFlight ≠ none) ∨ s.billing.tierWrite ≠ none ∨
        s.lockSettled = false ∨ s.roomSettled = false)) := by
  simp only [State.heldBack, Bool.or_eq_true, Bool.and_eq_true, isGuestKind_iff, isLockKind_iff, accessOpInFlight_iff,
    Option.isSome_iff_ne_none, Bool.not_eq_true', beq_iff_eq, or_assoc, and_assoc]

/-- No owner holds back a kind the part does not have. -/
theorem heldBack_unknown (s : State) {k : Byte} (h : k = 0 ∨ 0x1A ≤ k.toNat) : s.heldBack k = false := by
  have hk : k.toNat = 0 ∨ 0x1A ≤ k.toNat := h.imp_left fun h => by rw [h]; rfl
  refine Bool.eq_false_iff.2 fun hh => ?_
  rcases (heldBack_iff s k).1 hh with ⟨hlow, hhigh, -⟩ | ⟨h | h, -⟩ | ⟨h, -⟩
  · omega
  all_goals
    rw [h] at hk
    exact absurd hk (by decide)

/-- A request of an unknown kind that stands at the head is refused as it begins. -/
theorem exec_unknownRequest {t : Nat} {s : State} {r : Request} (hp : s.power ≠ .off)
    (hr : s.port.intake.head? = some r) (hk : r.kind = 0 ∨ 0x1A ≤ r.kind.toNat) :
    exec (.unknownRequest t) s = .next
      (if s.canBegin then (s.atInstant t).reply .unknownRequest [] else s.atInstant t) := by
  obtain ⟨rest, hi⟩ := List.head?_eq_some_iff.1 hr
  have hunknown : unknownKind r.kind = true := by simpa [unknownKind] using hk
  have hfree : (s.atInstant t).heldBack r.kind = false := heldBack_unknown _ hk
  rw [show exec (.unknownRequest t) s = execUnknownRequest t s from rfl, execUnknownRequest, occurs_powered hp]
  unfold State.beginRequest
  rw [show (s.atInstant t).port.intake = r :: rest from hi]
  simp only [hunknown, hfree, Bool.true_and, Bool.not_false, Bool.and_true]
  rfl

/-- The requests that have a command of their own, with their kinds and the groups of R17. -/
theorem exec_request :
    ∀ c ∈ ([(Instr.status, 0x01, .everyMode), (.screenStatus, 0x02, .everyMode),
      (.lineupRead, 0x03, .everyMode), (.catalogueRead, 0x04, .everyMode), (.readEvents, 0x05, .everyMode),
      (.clearEvents, 0x06, .everyMode), (.setEventMask, 0x07, .everyMode), (.journalRead, 0x08, .everyMode),
      (.journalRewind, 0x09, .everyMode), (.journalMode, 0x0A, .everyMode), (.settingsRead, 0x0B, .everyMode),
      (.tune, 0x0C, .everyMode), (.screenOff, 0x0D, .everyMode), (.routeHold, 0x0E, .everyMode),
      (.routeRelease, 0x0F, .everyMode), (.relock, 0x10, .everyMode), (.quote, 0x11, .guest),
      (.buy, 0x12, .guest), (.cancel, 0x13, .guest), (.unlock, 0x14, .guest), (.setPin, 0x15, .guest),
      (.restartStreams, 0x16, .restart), (.settingsWrite, 0x17, .service), (.provision, 0x18, .service),
      (.fullReset, 0x19, .service)] : List ((Nat → Instr) × Nat × Group)),
    ∃ f : List Byte → State → State, ∀ (t : Nat) (s : State), exec (c.1 t) s = occurs t (·.request c.2.1 c.2.2 f) s := by
  simp only [List.forall_mem_cons]
  refine ⟨?_, ?_, ?_, ?_, ?_, ?_, ?_, ?_, ?_, ?_, ?_, ?_, ?_, ?_, ?_, ?_, ?_, ?_, ?_, ?_, ?_, ?_, ?_, ?_, ?_,
    fun _ h => absurd h List.not_mem_nil⟩
  all_goals exact ⟨_, fun _ _ => rfl⟩

/-- The tests a request meets before its owner sees it (R17, R162). -/
theorem request_refused {t : Nat} {s : State} {kind : Nat} {group : Group} {f : List Byte → State → State} {r : Request}
    (hr : s.port.intake.head? = some r) (hk : r.kind.toNat = kind) :
    ((s.canBegin = false ∨ s.heldBack r.kind = true) → (s.atInstant t).request kind group f = s.atInstant t) ∧
      (s.canBegin = true → s.heldBack r.kind = false →
        (s.modeTakes group = false → (s.atInstant t).request kind group f = (s.atInstant t).reply .mode []) ∧
        (s.modeTakes group = true → r.body.length ≠ requestLength r.body kind →
          (s.atInstant t).request kind group f = (s.atInstant t).reply .badArgument [])) := by
  have hcan : (s.atInstant t).canBegin = s.canBegin := rfl
  have hheld : (s.atInstant t).heldBack r.kind = s.heldBack r.kind := rfl
  have hmode : (s.atInstant t).modeTakes group = s.modeTakes group := by cases group <;> rfl
  rw [request_at_head (s.atInstant t) kind group f r hr hk, hcan, hheld, hmode]
  refine ⟨fun h => ?_, fun hb hh => ⟨fun hm => ?_, fun hm hl => ?_⟩⟩
  · rcases h with h | h <;> simp [h]
  · simp [hb, hh, hm]
  · simp [hb, hh, hm, hl]

/-- Settles O45: the modes and what a request meets at the head of the intake. -/
theorem requestsBeginInTurnAndTheWrongAreRefused : Obligations.RequestsBeginInTurnAndTheWrongAreRefused := by
  refine ⟨fun s => ⟨mode_lockdown_iff s, mode_maintenance_iff s, mode_normal_iff s, rfl,
      (modeTakes_notLockdown_iff s).1, (modeTakes_notLockdown_iff s).2, modeTakes_service_iff s, canBegin_iff s,
      heldBack_iff s⟩,
    fun c hc t s r hp hr hk => ?_, fun t s r hp hr hk => exec_unknownRequest hp hr hk⟩
  obtain ⟨f, hf⟩ := exec_request c hc
  rw [hf, occurs_powered hp]
  simpa only [Host.Outcome.next.injEq] using request_refused hr hk

/-! ## PROVISION (R18, R171) -/

/-- The write a PROVISION begins: a new room id makes the kept changes of the keys absent. -/
theorem beginProvision_eq (p : Provision) (s : State) :
    s.beginProvision p =
      { s with
        keys := if p.newRoom then s.keys.map fun k => { k with next := none } else s.keys
        port := { s.port with provision := some p, executing := true } } := by
  unfold State.beginProvision
  cases p.newRoom <;> rfl

/-- Settles O49: the request's checks and its write, and the write's completion. -/
theorem provisionNamesTheRoomAndClearsTheOldOne : Obligations.ProvisionNamesTheRoomAndClearsTheOldOne := by
  refine ⟨fun t s r hb => ?_, fun t s p hp hw => ?_⟩
  · rw [show exec (.provision t) s = execProvision t s from rfl, execProvision, occurs_powered hb.powered,
      request_begins t hb]
    dsimp only
    rw [beginProvision_eq]
    by_cases hid : field 0 2 r.body = s.cur.room.roomId
    · simp only [hid, show (s.atInstant t).cur = s.cur from rfl, bne_self_eq_false, ne_eq, not_true_eq_false, if_true]
      rfl
    · simp only [hid, show (s.atInstant t).cur = s.cur from rfl, bne_iff_ne, ne_eq, not_false_eq_true, if_true, if_false]
      rfl
  · rw [show exec (.provisionWriteComplete t) s = execProvisionWriteComplete t s from rfl, execProvisionWriteComplete,
      occurs_powered hp]
    simp only [show (s.atInstant t).port.provision = some p from hw]
    refine ⟨fun hnew => ?_, fun hnew => ?_⟩
    · simp only [hnew, Provision.changes, Bool.true_or, if_true]
      exact ⟨_, reran_rerun _ _, rfl⟩
    · simp only [hnew, Provision.changes, Bool.false_or]
      rfl

end Sys2Proof.Machine
end
section
/-! PROOF. Distribution cells and the Cell Front: the cells that have no effect, and the path of a MEDIA cell (R19, R20,
R23, R25 to R27, R62, R63, R80, R83; O8). -/

namespace Sys2Proof.Machine

/-! ## Cells that are kept (R19, R20, R23) -/

theorem keeps_false_iff (s : State) (n : Nat) :
    s.keeps n = false ↔ ∀ p ∈ s.cells.programmes, p.service ≠ n := by
  simp [State.keeps, State.programme]

theorem keeps_of_programme {s : State} {n : Nat} {p : Programme} (h : s.programme n = some p) :
    s.keeps n = true := by
  simp [State.keeps, h]

/-- A step that has no effect moves the time on, where the part has power. -/
theorem occurs_idle {t : Nat} {f : State → State} {s : State} (h : f (s.atInstant t) = s.atInstant t) :
    occurs t f s = .next (if s.power = .off then s else s.atInstant t) := by
  rw [occurs, h]

theorem arriveMedia_ignored {cell : List Byte} {s : State}
    (h : s.cells.enabled = false ∨ wellFormedCell .media cell = false ∨ s.keeps (cellService cell) = false) :
    s.arriveMedia cell = s := by
  unfold State.arriveMedia
  split
  · rcases h with h | h | h <;> simp [h]
  · rfl

theorem arriveDescriptor_ignored {cell : List Byte} {s : State}
    (h : s.cells.enabled = false ∨ wellFormedCell .descriptor cell = false ∨
      s.keeps (cellService cell) = false) : s.arriveDescriptor cell = s := by
  unfold State.arriveDescriptor
  rcases h with h | h | h <;> simp [h]

theorem arriveManagement_ignored {cell : List Byte} {s : State}
    (h : s.cells.enabled = false ∨ wellFormedCell .management cell = false ∨ cellService cell ≠ 4095) :
    s.arriveManagement cell = s := by
  unfold State.arriveManagement
  rcases h with h | h | h <;> simp [h]

theorem arriveMedia_accepted {cell : List Byte} {s : State} {sc : Scramble} (he : s.cells.enabled = true)
    (hw : wellFormedCell .media cell = true) (hk : s.keeps (cellService cell) = true)
    (hsc : cellScramble cell = some sc) :
    s.arriveMedia cell = s.acceptMedia (cellService cell) (cellCount cell) (cellPayload cell) sc := by
  simp [State.arriveMedia, hsc, he, hw, hk]

/-! ## The programme record -/

theorem onProgramme_eq (n : Nat) (f : Programme → Programme) (s : State) :
    s.onProgramme n f = { s with cells := { s.cells with
      programmes := s.cells.programmes.map fun p => if p.service = n then f p else p } } := by
  simp only [State.onProgramme, beq_iff_eq]
  rfl

theorem noSignal_of_programme {s : State} {n : Nat} {p : Programme} (h : s.programme n = some p) :
    s.noSignal n = p.noSignal := by
  simp [State.noSignal, h]

/-- The continuity check: the first count of a record and the successor of the last one are no discontinuity
(R25). -/
theorem seeMedia_eq (now count : Nat) (p : Programme) :
    p.seeMedia now count =
      { p with
        lastCount := some count
        discontinuities :=
          if p.lastCount = none ∨ p.lastCount.map (fun c => (c + 1) % 16) = some count then p.discontinuities
          else min (p.discontinuities + 1) 65535
        noSignal := false
        noSignalAt := now + 2000 } := by
  unfold Programme.seeMedia
  cases p.lastCount <;> simp [eq_comm]

/-! ## The path of a MEDIA cell (R27, R62, R63, R80, R83) -/

/-- A payload is delivered where the service is shown, and is content where the last verdict ended at case 10. -/
theorem takeContent_eq (n : Nat) (payload : List Byte) (x : Output) :
    x.takeContent n payload =
      { x with
        content := if x.shown.isPlaying = true ∧ x.shownService = some n then payload else x.content
        contentSeen := if x.basis.isSome = true ∧ x.route = some n then true else x.contentSeen
        decided :=
          match x.basis with
          | some b => if x.route = some n then .playing b else x.decided
          | none => x.decided } := by
  obtain ⟨route, _, _, _, _, _, shown, shownService, _, basis, _, _, _, _, _⟩ := x
  unfold Output.takeContent
  cases basis with
  | none => cases shown <;> by_cases hservice : shownService = some n <;> simp [hservice, OutState.isPlaying]
  | some b =>
    by_cases hroute : route = some n
    · cases shown <;> by_cases hservice : shownService = some n <;> simp [hroute, hservice, OutState.isPlaying]
    · cases shown <;> by_cases hservice : shownService = some n <;> simp [hroute, hservice, OutState.isPlaying]

theorem deliver_eq {n : Nat} {payload : List Byte} {f : Output → Output}
    (h : ∀ x : Output, x.takeContent n payload = f x) (s : State) : s.deliver n payload = s.onOutputs f := by
  rw [State.deliver, show Output.takeContent n payload = f from funext h]

theorem activeEngine_active {s : State} {n : Nat} {e : EngineId} (h : s.activeEngine n = some e) :
    ∃ last noKeyAt, s.engine e = .active n last noKeyAt := by
  have hp := List.find?_some h
  dsimp only at hp
  split at hp
  case h_1 m last noKeyAt hm => exact ⟨last, noKeyAt, by rw [hm, beq_iff_eq.1 hp]⟩
  case h_2 => cases hp

/-- What the engine of a service makes of a cell it passes: its no-key timer runs from now on, with the parity of a
decoded cell, and a no-key condition that ends is reported (R55, R63, R64). -/
theorem cellDecoded_of_active {s : State} {e : EngineId} {n : Nat} {last : Option Parity} {noKeyAt : Option Nat}
    (h : s.engine e = .active n last noKeyAt) (parity : Option Parity) :
    let restarted := (s.setEngine e (.active n (parity.or last) (some (s.now + 500)))).promoteKeys
    if noKeyAt = none then Reran (restarted.routedTo n) restarted (s.cellDecoded e n parity)
    else s.cellDecoded e n parity = restarted := by
  unfold State.cellDecoded
  rw [h]
  cases noKeyAt with
  | none => exact reran_rerun _ _
  | some d => rfl

/-- Settles O8: the cells that have no effect, and the path of an accepted MEDIA cell by its scramble code and the
engine and key it meets. -/
theorem mediaCellIsCheckedThenPassedOrDropped : Obligations.MediaCellIsCheckedThenPassedOrDropped := by
  refine ⟨fun t cell s => ⟨rfl, fun h => ?_, fun h => ?_, fun h => ?_⟩,
    fun t n cell s p sc hp he hw hn hs hsc => ?_⟩
  · exact occurs_idle (arriveMedia_ignored (by rwa [← keeps_false_iff] at h))
  · exact occurs_idle (arriveDescriptor_ignored (by rwa [← keeps_false_iff] at h))
  · exact occurs_idle (arriveManagement_ignored h)
  intro now seen reaches s₀ decoded
  have hseen : (s.atInstant t).onProgramme n (.seeMedia now (cellCount cell)) = s₀ := by
    rw [onProgramme_eq, funext (seeMedia_eq now (cellCount cell))]
    rfl
  have hkeep : (s.atInstant t).keeps (cellService cell) = true := keeps_of_programme (p := p) (by rw [hn]; exact hs)
  let s₁ := if p.noSignal then s₀.rerun (s₀.routedTo n) else s₀
  have hnow : s₁.now = now := by
    dsimp only [s₁]
    split
    · exact congrArg Timebase.now (onlyVerdicts_rerun _ s₀).time
    · rfl
  refine ⟨s₁, s₁.passMedia n (cellCount cell) (cellPayload cell) sc, ?_, ?_, ?_⟩
  · rw [show exec (.mediaCell t cell) s = execMediaCell t cell s from rfl, execMediaCell, occurs_powered hp,
      arriveMedia_accepted (s := s.atInstant t) he hw hkeep hsc, hn, State.acceptMedia,
      show (s.atInstant t).noSignal n = p.noSignal from noSignal_of_programme (s := s) hs,
      show (s.atInstant t).now = now from rfl, hseen]
  · dsimp only [s₁]
    split
    · exact reran_rerun _ _
    · rfl
  have hreaches (payload : List Byte) (s : State) : s.deliver n payload = s.onOutputs (reaches payload) :=
    deliver_eq (takeContent_eq n payload) s
  have hdecoded {e : EngineId} (hact : s₁.activeEngine n = some e) (parity : Option Parity) :
      decoded e parity s₁ (s₁.cellDecoded e n parity) := by
    obtain ⟨last, noKeyAt, hengine⟩ := activeEngine_active hact
    exact ⟨last, noKeyAt, hengine, by rw [← hnow]; exact cellDecoded_of_active hengine parity⟩
  unfold State.passMedia
  cases hact : s₁.activeEngine n with
  | none =>
    cases sc with
    | clear => exact hreaches _ _
    | scrambled q => rfl
  | some e =>
    cases sc with
    | clear => exact ⟨_, hdecoded hact none, hreaches _ _⟩
    | scrambled q =>
      cases hkey : s₁.cellKey n q with
      | none => simp only [hkey]
      | some key =>
        simp only [hkey]
        exact ⟨_, hdecoded hact (some q), hreaches _ _⟩

end Sys2Proof.Machine
end

section
/-! PROOF. The programme record: DESCRIPTOR cells and the two deadlines of the Cell Front (R26, R28 to R30; O9). -/

namespace Sys2Proof.Machine

/-! ## DESCRIPTOR cells (R28, R30) -/

/-- A field of the payload is that field of the cell (R181). -/
theorem field_cellPayload {off len : Nat} (cell : List Byte) (h : off + len ≤ 152) :
    field off len (cellPayload cell) = field (8 + off) len cell := by
  have hlen : min len (152 - off) = len := by omega
  simp [field, fieldBytes, cellPayload, List.drop_take, List.take_take, List.drop_drop, hlen]

theorem arriveDescriptor_accepted {cell : List Byte} {s : State} (he : s.cells.enabled = true)
    (hw : wellFormedCell .descriptor cell = true) (hk : s.keeps (cellService cell) = true) :
    s.arriveDescriptor cell = s.acceptDescriptor (cellService cell) (field 8 2 cell) (field 10 1 cell) := by
  simp [State.arriveDescriptor, he, hw, hk, descriptorTitle, descriptorRating, field_cellPayload]

theorem descriptorDiffers_false_iff {s : State} {n : Nat} {p : Programme} (h : s.programme n = some p)
    (title rating : Nat) :
    s.descriptorDiffers n title rating = false ↔
      titleOfId title = p.title ∧ p.rating = some (min 5 rating) := by
  simp [State.descriptorDiffers, State.titleOf, State.descriptorRatingOf, h, eq_comm (b := titleOfId title)]

/-- A descriptor sets the record; what it changes is notified (R28, R30). -/
theorem acceptDescriptor_told {s : State} {n : Nat} {p : Programme} (h : s.programme n = some p)
    (title rating : Nat) :
    let seen := s.onProgramme n (.seeDescriptor s.now title rating)
    if titleOfId title = p.title ∧ p.rating = some (min 5 rating) then
      s.acceptDescriptor n title rating = seen
    else LapsedAndReran (seen.rerated s) (seen.routedTo n) seen (s.acceptDescriptor n title rating) := by
  intro seen
  unfold State.acceptDescriptor
  simp only [← descriptorDiffers_false_iff h]
  cases s.descriptorDiffers n title rating with
  | false => rfl
  | true => exact lapsedAndReran_rerun _ _ _

/-! ## The deadlines (R26, R29) -/

/-- Before its deadline a timer does nothing; a set no-signal condition has no timer (R26). -/
theorem exec_noSignalDeadline {t n : Nat} {s : State} {p : Programme} (hp : s.power ≠ .off)
    (h : s.programme n = some p) :
    let lost := (s.atInstant t).onProgramme n fun q => { q with noSignal := true }
    exec (.noSignalDeadline t n) s = .next
      (if p.noSignal = false ∧ p.noSignalAt ≤ max s.time.now t then lost.rerun (lost.routedTo n)
      else s.atInstant t) := by
  intro lost
  have h' : (s.atInstant t).programme n = some p := h
  have hdue : (!p.noSignal && reached p.noSignalAt (s.atInstant t)) = true ↔
      p.noSignal = false ∧ p.noSignalAt ≤ max s.time.now t := by
    simp [reached, State.now, State.atInstant]
  rw [show exec (.noSignalDeadline t n) s = execNoSignalDeadline t n s from rfl, execNoSignalDeadline,
    occurs_powered hp]
  simp only [h', hdue]
  rfl

theorem due_iff (deadline : Option Nat) (s : State) :
    due deadline s = true ↔ ∃ d, deadline = some d ∧ d ≤ s.now := by
  cases deadline <;> simp [due, reached]

/-- A rating that has become stale goes, the title stays, and the change is notified (R29, R30). -/
theorem exec_stalenessDeadline {t n : Nat} {s : State} {p : Programme} (hp : s.power ≠ .off)
    (h : s.programme n = some p) :
    let stale := (s.atInstant t).onProgramme n fun q => { q with rating := none, staleAt := none }
    ∃ s₁, exec (.stalenessDeadline t n) s = .next s₁ ∧
      ((∃ d, p.staleAt = some d ∧ d ≤ max s.time.now t) →
        LapsedAndReran (stale.rerated s) (stale.routedTo n) stale s₁) ∧
      ((¬ ∃ d, p.staleAt = some d ∧ d ≤ max s.time.now t) → s₁ = s.atInstant t) := by
  intro stale
  have h' : (s.atInstant t).programme n = some p := h
  rw [show exec (.stalenessDeadline t n) s = execStalenessDeadline t n s from rfl, execStalenessDeadline,
    occurs_powered hp]
  simp only [h', due_iff, show (s.atInstant t).now = max s.time.now t from rfl]
  refine ⟨_, rfl, fun hdue => ?_, fun hdue => if_neg hdue⟩
  rw [if_pos hdue]
  exact lapsedAndReran_rerun _ _ _

/-- Settles O9: the record an accepted DESCRIPTOR cell leaves, and the two deadlines. -/
theorem programmeRecordFollowsDescriptorsAndDeadlines :
    Obligations.ProgrammeRecordFollowsDescriptorsAndDeadlines := by
  refine ⟨fun t n cell s p hp he hw hn hs => ?_, fun t n s p hp hs => ⟨?_, ?_⟩⟩
  · have hkeep : (s.atInstant t).keeps (cellService cell) = true := keeps_of_programme (p := p) (by rw [hn]; exact hs)
    rw [show exec (.descriptorCell t cell) s = execDescriptorCell t cell s from rfl, execDescriptorCell,
      occurs_powered hp, arriveDescriptor_accepted (s := s.atInstant t) he hw hkeep, hn]
    have told := acceptDescriptor_told (s := s.atInstant t) hs (field 8 2 cell) (field 10 1 cell)
    rw [onProgramme_eq] at told
    exact ⟨_, rfl, told⟩
  · have hexec := exec_noSignalDeadline (t := t) hp hs
    rw [onProgramme_eq] at hexec
    refine ⟨_, hexec, ?_⟩
    dsimp only
    split
    · exact reran_rerun _ _
    · rfl
  · obtain ⟨s₁, hexec, hdue, hnot⟩ := exec_stalenessDeadline (t := t) hp hs
    rw [onProgramme_eq] at hdue
    refine ⟨s₁, hexec, ?_⟩
    dsimp only
    split
    · exact hdue ‹_›
    · exact hnot ‹_›

end Sys2Proof.Machine
end

section
/-! PROOF. The Management Decoder: the six tests of a payload, at once or behind a message (R32, R37 to R41; O10). -/

namespace Sys2Proof.Machine

/-! ## The tests (R37) -/

theorem allows_iff (k : MsgKind) (sc : Scope) :
    k.allows sc = true ↔
      if k ∈ [.setPolicy, .setRates, .suspend, .resume, .lockdown, .fullReset] then True
      else if k ∈ [.setTime, .lineup, .catalogue, .keyDelivery] then sc ≠ .room
      else sc = .room := by
  cases k <;> simp [MsgKind.allows]

theorem addressed_iff (s : State) (sc : Scope) (address : Nat) :
    s.addressed sc address = true ↔
      sc = .all ∨ s.cur.room.roomId ≠ 0 ∧
        (sc = .room ∧ address = s.cur.room.roomId ∨ sc = .group ∧ address = s.cur.room.group) := by
  cases sc <;> simp [State.addressed]

theorem numbered_iff (k : MsgKind) : k.numbered = true ↔ k ∉ [.lineup, .catalogue, .keyDelivery] := by
  cases k <;> simp [MsgKind.numbered]

theorem isRepeat_iff (s : State) (m : Message) :
    s.isRepeat m = true ↔
      m.body.kind ∉ [.lineup, .catalogue, .keyDelivery] ∧ s.issueOf m.body.kind m.scope = some m.issue := by
  simp only [State.isRepeat, Bool.and_eq_true, numbered_iff, beq_iff_eq]

/-- The fields of a body make one of the kind they are read for. -/
theorem bodyFields_kind {k : MsgKind} {b : List Byte} {body : MsgBody} (h : bodyFields b k = some body) :
    body.kind = k := by
  cases k
  case checkIn | pinReset | bar | setPolicy | lockdown =>
    obtain ⟨_, _, rfl⟩ := Option.map_eq_some_iff.1 h
    rfl
  case grantTier | revokeTier | groupKey | revokeGroup | setTime | lineup | catalogue =>
    cases (Option.ite_none_right_eq_some.1 h).2
    rfl
  case fullReset =>
    cases (Option.ite_none_left_eq_some.1 h).2
    rfl
  case keyDelivery =>
    simp only [bodyFields] at h
    split at h
    · cases (Option.ite_none_right_eq_some.1 h).2
      rfl
    · cases h
  all_goals
    cases h
    rfl

theorem parseBody_kind {k : MsgKind} {b : List Byte} {body : MsgBody} (h : parseBody k b = some body) :
    body.kind = k :=
  bodyFields_kind (Option.ite_none_right_eq_some.1 h).2

theorem judgePayload_badCheck (s : State) {p : List Byte} (h : msgCheckOk p = false) :
    s.judgePayload p = .dropped := by
  simp [State.judgePayload, h]

theorem judgePayload_noHeader (s : State) {p : List Byte} (h : msgKind p = none ∨ msgScope p = none) :
    s.judgePayload p = .dropped := by
  unfold State.judgePayload
  split
  · split
    · rename_i hk hsc
      rcases h with h | h
      · rw [hk] at h
        cases h
      · rw [hsc] at h
        cases h
    · rfl
  · rfl

/-- Tests 3 to 6, of a payload whose check and header hold. -/
theorem judgePayload_eq (s : State) {p : List Byte} {k : MsgKind} {sc : Scope} (hc : msgCheckOk p = true)
    (hk : msgKind p = some k) (hsc : msgScope p = some sc) :
    s.judgePayload p = if k.allows sc then s.judgeAddressed k sc p else .dropped := by
  simp [State.judgePayload, hc, hk, hsc]

/-! ## A payload is judged (R39 to R41; log 8) -/

theorem judgeHanded_dropped {s : State} {p : List Byte} (ps : List (List Byte)) (h : s.judgePayload p = .dropped) :
    s.judgeHanded (p :: ps) = s.countDrop.judgeHanded ps := by
  rw [State.judgeHanded, h]

theorem judgeHanded_discarded {s : State} {p : List Byte} (ps : List (List Byte))
    (h : s.judgePayload p = .discarded) : s.judgeHanded (p :: ps) = s.judgeHanded ps := by
  rw [State.judgeHanded, h]

theorem judgeHanded_accepted {s : State} {p : List Byte} {m : Message} (ps : List (List Byte))
    (h : s.judgePayload p = .accepted m) :
    s.judgeHanded (p :: ps) = s.onDecoder fun d => { d with accepted := some m, handed := ps } := by
  rw [State.judgeHanded, h]

theorem judgeHanded_none {s : State} (h : s.decoder.handed = []) : s.judgeHanded [] = s := by
  simp only [State.judgeHanded, State.onDecoder, ← h]

/-- The tests of R37 in order, for a payload with others behind it. -/
theorem judgeHanded_cons (s : State) (p : List Byte) (ps : List (List Byte)) :
    (msgCheckOk p = false → s.judgeHanded (p :: ps) = s.countDrop.judgeHanded ps) ∧
    (msgKind p = none ∨ msgScope p = none → s.judgeHanded (p :: ps) = s.countDrop.judgeHanded ps) ∧
    (∀ k sc, msgCheckOk p = true → msgKind p = some k → msgScope p = some sc →
      (¬ k.allows sc = true → s.judgeHanded (p :: ps) = s.countDrop.judgeHanded ps) ∧
      (k.allows sc = true → ¬ s.addressed sc (msgAddress p) = true →
        s.judgeHanded (p :: ps) = s.judgeHanded ps) ∧
      (k.allows sc = true → s.addressed sc (msgAddress p) = true → parseBody k (msgBody p) = none →
        s.judgeHanded (p :: ps) = s.countDrop.judgeHanded ps) ∧
      (k.allows sc = true → s.addressed sc (msgAddress p) = true → ∀ body, parseBody k (msgBody p) = some body →
        (s.isRepeat ⟨sc, msgIssue p, body⟩ = true → s.judgeHanded (p :: ps) = s.judgeHanded ps) ∧
        (¬ s.isRepeat ⟨sc, msgIssue p, body⟩ = true → s.judgeHanded (p :: ps) = s.onDecoder fun d =>
          { d with accepted := some ⟨sc, msgIssue p, body⟩, handed := ps }))) := by
  refine ⟨fun h => judgeHanded_dropped ps (judgePayload_badCheck s h),
    fun h => judgeHanded_dropped ps (judgePayload_noHeader s h), fun k sc hc hk hsc => ?_⟩
  have hjudge := judgePayload_eq s hc hk hsc
  refine ⟨fun ha => judgeHanded_dropped ps ?_, fun ha hd => judgeHanded_discarded ps ?_,
    fun ha hd hb => judgeHanded_dropped ps ?_,
    fun ha hd body hb => ⟨fun hr => judgeHanded_discarded ps ?_, fun hr => judgeHanded_accepted ps ?_⟩⟩
  · rw [hjudge, if_neg ha]
  · rw [hjudge, if_pos ha, State.judgeAddressed, if_neg hd]
  all_goals rw [hjudge, if_pos ha, State.judgeAddressed, if_pos hd, hb]
  · exact if_pos hr
  · exact if_neg hr

/-- A payload that meets a message awaiting its owner waits behind it (log 8). -/
theorem handOver_waits {s : State} (p : List Byte) (h : s.decoder.accepted ≠ none) :
    s.handOver p = s.onDecoder fun d => { d with handed := d.handed ++ [p] } := by
  obtain ⟨m, hm⟩ := Option.ne_none_iff_exists'.1 h
  simp [State.handOver, hm]

theorem handOver_judged {s : State} (p : List Byte) (h : s.decoder.accepted = none) :
    s.handOver p = s.judgeHanded (s.decoder.handed ++ [p]) := by
  simp [State.handOver, h]

theorem exec_managementCell {t : Nat} {cell : List Byte} {s : State} (hp : s.power ≠ .off)
    (he : s.cells.enabled = true) (hw : wellFormedCell .management cell = true) (hn : cellService cell = 4095) :
    exec (.managementCell t cell) s = .next ((s.atInstant t).handOver (cellPayload cell)) := by
  have he' : (s.atInstant t).cells.enabled = true := he
  rw [show exec (.managementCell t cell) s = execManagementCell t cell s from rfl, execManagementCell,
    occurs_powered hp]
  simp [State.arriveManagement, he', hw, hn]

/-- Settles O10: a payload is handed over behind a message or judged, by the tests as `judgeHanded_cons` has them. -/
theorem managementPayloadIsJudgedByTheSixTests : Obligations.ManagementPayloadIsJudgedByTheSixTests := by
  intro t cell s hp he hw hn p s₀ dropped allowed addressed seenBefore
  have hexec := exec_managementCell (t := t) hp he hw hn
  have hallowed (k : MsgKind) (sc : Scope) : allowed k sc ↔ k.allows sc = true := (allows_iff k sc).symm
  have haddressed (sc : Scope) : addressed sc ↔ s.addressed sc (msgAddress p) = true :=
    (addressed_iff s sc (msgAddress p)).symm
  have hseen {k : MsgKind} (sc : Scope) {body : MsgBody} (hb : parseBody k (msgBody p) = some body) :
      seenBefore k sc ↔ s.isRepeat ⟨sc, msgIssue p, body⟩ = true := by
    rw [isRepeat_iff, parseBody_kind hb]
  have hjudged (h : s.decoder.accepted = none) :
      exec (.managementCell t cell) s = .next (s₀.judgeHanded (s.decoder.handed ++ [p])) := by
    rw [hexec, handOver_judged (s := s.atInstant t) _ h]
    rfl
  refine ⟨fun h => ?_, fun h hh => ?_, hjudged, rfl, fun behind => ?_⟩
  · rw [hexec, handOver_waits (s := s.atInstant t) _ h]
    rfl
  · have htests := judgeHanded_cons s₀ p []
    rw [show s₀.countDrop.judgeHanded [] = dropped from judgeHanded_none hh,
      show s₀.judgeHanded [] = s₀ from judgeHanded_none hh] at htests
    obtain ⟨hcheck, hheader, htests⟩ := htests
    have hone {s₁ : State} (h₁ : s₀.judgeHanded [p] = s₁) : exec (.managementCell t cell) s = .next s₁ := by
      rw [hjudged h, hh, List.nil_append, h₁]
    refine ⟨fun hc => hone (hcheck hc), fun _ hm => hone (hheader hm), fun k sc hc hk hsc => ?_⟩
    obtain ⟨h3, h4, h5, h6⟩ := htests k sc hc hk hsc
    rw [hallowed, haddressed]
    refine ⟨fun ha => hone (h3 ha), fun ha hd => hone (h4 ha hd), fun ha hd hb => hone (h5 ha hd hb),
      fun ha hd body hb => ?_⟩
    obtain ⟨hrepeat, hnew⟩ := h6 ha hd body hb
    rw [hseen sc hb]
    refine ⟨fun hr => hone (hrepeat hr), fun hr => hone ((hnew hr).trans ?_)⟩
    simp only [State.onDecoder, ← hh]
    rfl
  · obtain ⟨hcheck, hheader, htests⟩ := judgeHanded_cons s p behind
    refine ⟨hcheck, fun _ => hheader, fun k sc hc hk hsc => ?_⟩
    obtain ⟨h3, h4, h5, h6⟩ := htests k sc hc hk hsc
    rw [hallowed, haddressed]
    refine ⟨h3, h4, h5, fun ha hd body hb => ?_⟩
    rw [hseen sc hb]
    exact h6 ha hd body hb

end Sys2Proof.Machine
end

section
/-! PROOF. TUNE and SCREEN_OFF, and the filter set that a change of route leaves (R22, R89 to R93, R111; O20). -/

namespace Sys2Proof.Machine

/-! ## What a request names (R89, R183) -/

theorem screenOfNat_screen (o : Screen) : screenOfNat (o.val + 1) = some o := by
  fin_cases o <;> rfl

theorem screenOfNat_none {n : Nat} (h : n < 1 ∨ 4 < n) : screenOfNat n = none := by
  unfold screenOfNat
  split <;> first | rfl | omega

/-- A TUNE names a service by the channel position of its lineup record, or by its number (R89). -/
theorem targetOf_resolve_iff (s : State) (code target n : Nat) :
    (targetOf code target).bind s.resolve = some n ↔
      code = 0 ∧ (∃ v, (s.billing.lineup.find? fun v => v.position == target) = some v ∧ v.number = n) ∨
        code = 1 ∧ target = n ∧ 1 ≤ n ∧ n ≤ 4094 := by
  unfold targetOf
  split
  · simp [State.resolve]
  · simp only [Option.bind_some, State.resolve]
    grind
  · simp_all

/-! ## The filter set (R22) -/

theorem refilter_eq (s : State) : s.refilter = { s with cells := s.refilter.cells } := rfl

theorem find?_map_empty (l : List Nat) (n now : Nat) :
    (l.map fun m => Programme.empty m now).find? (·.service == n) =
      if n ∈ l then some (Programme.empty n now) else none := by
  induction l with
  | nil => rfl
  | cons m ms ih =>
    rw [List.map_cons, List.find?_cons, ih, show (Programme.empty m now).service = m from rfl]
    by_cases h : m = n
    · simp [h]
    · simp [beq_false_of_ne h, Ne.symm h]

theorem find?_filter_service (l : List Programme) (used : List Nat) (n : Nat) :
    (l.filter fun p => used.contains p.service).find? (·.service == n) =
      if n ∈ used then l.find? (·.service == n) else none := by
  rw [List.find?_filter]
  split
  case isTrue h =>
    congr
    funext p
    by_cases hp : p.service = n <;> simp [hp, h]
  case isFalse h =>
    rw [List.find?_eq_none]
    rintro p - hp
    simp only [decide_eq_true_eq, List.contains_iff_mem, beq_iff_eq] at hp
    exact h (hp.2 ▸ hp.1)

/-- A service in use keeps its programme record, or gets an empty one; any other loses it. -/
theorem programme_refilter (s : State) (n : Nat) :
    s.refilter.programme n =
      if n ∈ s.usedServices then some ((s.programme n).getD (Programme.empty n s.now)) else none := by
  have hentered : n ∈ s.usedServices.filter (fun m => !(s.cells.programmes.any fun p => p.service == m)) ↔
      n ∈ s.usedServices ∧ s.programme n = none := by
    simp [State.programme]
  have happend : s.refilter.programme n =
      ((s.cells.programmes.filter fun p => s.usedServices.contains p.service).find? (·.service == n)).or
        (((s.usedServices.filter fun m => !(s.cells.programmes.any fun p => p.service == m)).map
          fun m => Programme.empty m s.now).find? (·.service == n)) := List.find?_append
  rw [happend, find?_filter_service, find?_map_empty]
  simp only [hentered, show s.cells.programmes.find? (·.service == n) = s.programme n from rfl]
  by_cases hused : n ∈ s.usedServices
  · cases s.programme n <;> simp [hused]
  · simp [hused]

/-! ## Routes (R89 to R93, R111) -/

theorem applyRoute_reran (o : Screen) (route : Option Nat) (s : State) :
    Reran [o] (s.onOutput o (.reroute route)).refilter (s.applyRoute o route) :=
  reran_rerun _ _

theorem tuneTo_held (o : Screen) (n : Nat) {s : State} (h : s.router.hold ≠ none) :
    s.tuneTo o n = s.onOutput o fun x => { x with staged := some (.service n) } :=
  if_pos (Option.isSome_iff_ne_none.2 h)

theorem tuneTo_same {o : Screen} {n : Nat} {s : State} (h : s.router.hold = none)
    (hr : (s.output o).route = some n) : s.tuneTo o n = s := by
  simp [State.tuneTo, h, hr]

theorem tuneTo_moved {o : Screen} {n : Nat} {s : State} (h : s.router.hold = none)
    (hr : (s.output o).route ≠ some n) : s.tuneTo o n = s.applyRoute o (some n) := by
  simp [State.tuneTo, h, hr]

theorem switchOff_held (o : Screen) {s : State} (h : s.router.hold ≠ none) :
    s.switchOff o = s.onOutput o fun x => { x with staged := some .off } :=
  if_pos (Option.isSome_iff_ne_none.2 h)

/-- An output with no route loses the screen's unlock alone (R111; log 40). -/
theorem switchOff_unrouted (o : Screen) {s : State} (h : s.router.hold = none) (hr : (s.output o).route = none) :
    s.switchOff o = (s.dropUnlock (some o)).rerunAll := by
  simp [State.switchOff, h, hr]

theorem switchOff_routed (o : Screen) {s : State} (h : s.router.hold = none) (hr : (s.output o).route ≠ none) :
    s.switchOff o = ((s.applyRoute o none).dropUnlock (some o)).rerunAll := by
  simp [State.switchOff, h, Option.isSome_iff_ne_none, hr]

theorem dropUnlock_of_lock {s : State} {l : Lock} (o : Screen) (h : s.lock = l) :
    s.dropUnlock (some o) = { s with lock := { l with screens := l.screens.set none o } } := by
  subst h
  rfl

theorem exec_tune_refused {t : Nat} {s : State} {r : Request} (hb : Begins 0x0C .everyMode s r)
    (h : field 0 1 r.body < 1 ∨ 4 < field 0 1 r.body ∨
      (targetOf (field 1 1 r.body) (field 2 2 r.body)).bind s.resolve = none) :
    exec (.tune t) s = .next ((s.atInstant t).reply .badArgument []) := by
  rw [show exec (.tune t) s = execTune t s from rfl, execTune, occurs_powered hb.powered, request_begins t hb]
  rw [← or_assoc] at h
  rcases h with h | h
  · rw [screenOfNat_none h]
  · rw [show (s.atInstant t).resolve = s.resolve from rfl, h]
    split
    · contradiction
    · rfl

theorem exec_tune_taken {t n : Nat} {o : Screen} {s : State} {r : Request} (hb : Begins 0x0C .everyMode s r)
    (hs : field 0 1 r.body = o.val + 1)
    (hn : (targetOf (field 1 1 r.body) (field 2 2 r.body)).bind s.resolve = some n) :
    exec (.tune t) s = .next (((s.atInstant t).tuneTo o n).reply .ok (leBytes 2 n)) := by
  rw [show exec (.tune t) s = execTune t s from rfl, execTune, occurs_powered hb.powered, request_begins t hb]
  rw [show (s.atInstant t).resolve = s.resolve from rfl, hs, screenOfNat_screen, hn]
  rfl

theorem exec_screenOff_refused {t : Nat} {s : State} {r : Request} (hb : Begins 0x0D .everyMode s r)
    (h : field 0 1 r.body < 1 ∨ 4 < field 0 1 r.body) :
    exec (.screenOff t) s = .next ((s.atInstant t).reply .badArgument []) := by
  rw [show exec (.screenOff t) s = execScreenOff t s from rfl, execScreenOff, occurs_powered hb.powered,
    request_begins t hb, screenOfNat_none h]

theorem exec_screenOff_taken {t : Nat} {o : Screen} {s : State} {r : Request} (hb : Begins 0x0D .everyMode s r)
    (hs : field 0 1 r.body = o.val + 1) :
    exec (.screenOff t) s = .next (((s.atInstant t).switchOff o).reply .ok []) := by
  rw [show exec (.screenOff t) s = execScreenOff t s from rfl, execScreenOff, occurs_powered hb.powered,
    request_begins t hb, hs, screenOfNat_screen]

/-- Settles O20: the two requests, refused, staged or applied, and the recomputed filter set. -/
theorem tuneAndScreenOffAreStagedOrApplied : Obligations.TuneAndScreenOffAreStagedOrApplied := by
  refine ⟨fun t s r hb => ⟨fun h => exec_tune_refused hb ?_, fun o n hs hr => ?_⟩,
    fun t s r hb => ⟨fun h => exec_screenOff_refused hb h, fun o hs => ?_⟩,
    fun s => ⟨refilter_eq s, rfl, fun h => (filterLaw_refilter s h).1, fun n => ?_⟩⟩
  · simp only [← targetOf_resolve_iff] at h
    exact h.imp_right (Or.imp_right Option.eq_none_iff_forall_ne_some.2)
  · refine ⟨_, exec_tune_taken hb hs ((targetOf_resolve_iff s _ _ n).2 hr), fun hh => tuneTo_held o n hh,
      fun hh he => tuneTo_same (s := s.atInstant t) hh he, fun hh he => ?_⟩
    rw [tuneTo_moved (s := s.atInstant t) hh he]
    exact applyRoute_reran o _ _
  · refine ⟨_, exec_screenOff_taken hb hs, fun hh => switchOff_held o hh, fun hh he => ?_, fun hh he => ?_⟩
    · rw [switchOff_unrouted (s := s.atInstant t) o hh he]
      exact reran_rerun _ _
    · have applied := applyRoute_reran o none (s.atInstant t)
      refine ⟨_, applied, ?_⟩
      rw [switchOff_routed (s := s.atInstant t) o hh he, dropUnlock_of_lock (l := s.lock) o applied.lock]
      exact reran_rerun _ _
  · rw [programme_refilter]
    simp only [mem_usedServices]
    rfl

end Sys2Proof.Machine
end

section
/-! PROOF. RESTART_STREAMS and its three steps (R34, R57, R77, R97, R179; O51). -/

namespace Sys2Proof.Machine

/-! ## Step 1: the engines (R57, R77) -/

theorem idleDeadline_eq (s : State) :
    s.idleDeadline = if s.cur.settings.power = .auto then some (s.now + 10000) else none := by
  unfold State.idleDeadline
  cases s.cur.settings.power <;> rfl

theorem Output.unhold_eq (x : Output) :
    x.unhold = { x with engine := none, contentSeen := x.contentSeen && x.engine.isNone } := by
  obtain ⟨_, _, _, _, _, _, _, _, _, _, _, _, engine, _, _⟩ := x
  cases engine <;> simp [Output.unhold]

theorem Output.restarted_eq (x : Output) :
    x.restarted =
      if x.route = none then x else { x with contentSeen := false, noTitleAt := none, noInfo := false } := by
  unfold Output.restarted
  cases x.route <;> rfl

/-! ## Steps 2 and 3: the programme records and the outputs (R34, R97) -/

/-- The emptying notifies the changes of the records, after the deferred lapses of log 56. -/
theorem emptyProgrammes_told (s : State) :
    LapsedAndReran
      (State.rerated (s.onCells fun c =>
        { c with programmes := c.programmes.map fun p => .empty p.service s.now }) s)
      s.emptyingTold (s.onCells fun c => { c with programmes := c.programmes.map fun p => .empty p.service s.now })
      s.emptyProgrammes :=
  lapsedAndReran_rerun _ _ _

/-- The outputs a report concerns are those of the state before, where the routes are. -/
theorem routedOutputs_congr {s s' : State} (h : ∀ o, (s'.output o).route = (s.output o).route) :
    s'.routedOutputs = s.routedOutputs := by
  simp only [State.routedOutputs, h]

theorem emptyingTold_congr {s s' : State} (h : ∀ o, (s'.output o).route = (s.output o).route)
    (hcells : s'.cells = s.cells) : s'.emptyingTold = s.emptyingTold := by
  have hprogramme : s'.programme = s.programme := by
    funext n
    simp only [State.programme, hcells]
  simp only [State.emptyingTold, h, hprogramme]

/-- Settles O51: the three steps in order. -/
theorem restartStreamsRebuildsTheMediaPath : Obligations.RestartStreamsRebuildsTheMediaPath := by
  intro t s r hb now idle released unheld s₁ empty emptied told routed cleared
  have hs₁ : (s.atInstant t).restartEngines = s₁ := by
    have hreleased (e : Engine) : e.restarted idle = released e := by
      rcases e with _ | _ | (_ | _) | _ <;> rfl
    rw [State.restartEngines, show (s.atInstant t).idleDeadline = idle from idleDeadline_eq _,
      show Engine.restarted idle = released from funext hreleased, funext Output.unhold_eq]
    rfl
  have hroute (o : Screen) : (s₁.output o).route = (s.output o).route :=
    (congrArg Output.route (Four.get_map unheld s.router.outputs o) :)
  have hemptied : LapsedAndReran (emptied.rerated s₁) told emptied s₁.emptyProgrammes := by
    rw [show told = s₁.emptyingTold from (emptyingTold_congr hroute rfl).symm]
    exact emptyProgrammes_told s₁
  have hcleared : Reran routed { s₁.emptyProgrammes with router := { s₁.emptyProgrammes.router with
      outputs := s₁.emptyProgrammes.router.outputs.map cleared } } s₁.emptyProgrammes.restartOutputs := by
    have hsame (o : Screen) : (s₁.emptyProgrammes.output o).route = (s.output o).route :=
      (hemptied.outputs o).1.trans (hroute o)
    rw [show routed = s₁.emptyProgrammes.routedOutputs from (routedOutputs_congr hsame).symm,
      State.restartOutputs, funext Output.restarted_eq]
    exact reran_rerun _ _
  refine ⟨_, _, hemptied, hcleared, ?_⟩
  rw [show exec (.restartStreams t) s = execRestartStreams t s from rfl, execRestartStreams,
    occurs_powered hb.powered, request_begins t hb, hs₁]

end Sys2Proof.Machine
end

section
/-! PROOF. The end of start-up, and FULL_RESET, which begins it again (R20, R49, R75, R97, R109, R145, R158, R177,
R178; O53). -/

namespace Sys2Proof.Machine

/-! ## The end of start-up (R178, stages 5 to 7) -/

/-- The durations of R108 in minutes; a count of 0 lasts as a count of 1 (log 34). -/
theorem lockoutDuration_eq (n : Nat) :
    lockoutDuration n = (if n ≤ 1 then 15 else if n = 2 then 30 else if n = 3 then 60 else 120) * 60000 := by
  match n with
  | 0 | 1 | 2 | 3 => rfl
  | n + 4 => simp [lockoutDuration]

/-- The policy and the room record have the engines powered: ALWAYS, outside a suspension (R75). -/
def Retained.powersEngines (r : Retained) : Bool := decide (r.settings.power = .always) && !r.room.suspended

theorem powersEngines_iff (r : Retained) :
    r.powersEngines = true ↔ r.settings.power = .always ∧ r.room.suspended = false := by
  simp [Retained.powersEngines]

/-- An engine that is OFF is powered where the policy has it. -/
def Engine.poweredIf (on : Bool) (deadline : Nat) (e : Engine) : Engine :=
  if on = true ∧ e = .off then .warming none deadline else e

theorem powerEngines_eq (s : State) :
    s.powerEngines = { s with pool := { s.pool with
      engines := s.pool.engines.map (.poweredIf s.cur.powersEngines (s.time.now + 40)) } } := by
  unfold State.powerEngines
  simp only [← powersEngines_iff]
  cases s.cur.powersEngines with
  | true =>
    have hon : Engine.poweredIf true (s.time.now + 40) = .powered (s.now + 40) := by
      funext e
      cases e <;> rfl
    rw [hon]
    rfl
  | false =>
    have hoff : Engine.poweredIf false (s.time.now + 40) = id := by
      funext e
      simp [Engine.poweredIf]
    rw [hoff]
    rfl

theorem finishStartUp_eq (s : State) :
    s.finishStartUp = { s with
      power := .running
      journal := { s.journal with armed := decide (s.cur.records.length < s.cur.settings.highMark) }
      lock := { s.lock with lockoutAt :=
        if s.cur.lock.running then some (s.time.now + lockoutDuration s.cur.lock.lockouts) else none }
      cells := { s.cells with enabled := true }
      port := { s.port with opened := true }
      router := { s.router with dark := false }
      pool := { s.pool with
        engines := s.pool.engines.map (.poweredIf s.cur.powersEngines (s.time.now + 40)) } } := by
  simp only [State.finishStartUp, powerEngines_eq, State.onJournal, State.onLock, State.onCells, State.onPort,
    State.onRouter, State.now]
  rfl

/-! ## FULL_RESET (R49, R177, R178) -/

/-- The OK reply to a FULL_RESET is queued and marked, and goes out when the transmitter is free. -/
theorem replyWith_eq {s : State} {r : Request} {rest : List Request} (h : s.port.intake = r :: rest)
    (st : Status) (fields : List Byte) (resets : Bool) :
    s.replyWith st fields resets = { s with port := { s.port with
      intake := rest
      executing := false
      guestWaits := false
      outbound := s.port.outbound ++
        [⟨frameBytes (replyKind r.kind) r.tag (replyBody st rest.length fields), false, resets⟩]
      transmitter :=
        if s.port.transmitter = .idle ∧ s.port.lineBreak = false then .reply else s.port.transmitter } } := by
  unfold State.replyWith
  rw [h]
  simp [State.queueFrame, startSending_eq, State.onPort]

theorem takeFullReset_eq (serial : Nat) (s : State) :
    State.takeFullReset (.fullReset serial) s =
      { s with serials := if s.cur.resetSerial = some serial then s.serials else s.serials ++ [serial] } := by
  rw [State.takeFullReset]
  split <;> rfl

/-! ## Start-up and the straps (R16, R177) -/

theorem beginClose_onPort (n : Nat) (cause : CloseCause) (f : Port → Port) (s : State) :
    (s.onPort f).beginClose n cause = (s.beginClose n cause).onPort f := by
  unfold State.beginClose
  rw [show (s.onPort f).session n = s.session n from rfl]
  split
  · split <;> rfl
  · rfl

/-- The close of a session found at start-up has nothing to do with the Set Port. -/
theorem closeFound_onPort (f : Port → Port) (s : State) : (s.onPort f).closeFound = s.closeFound.onPort f := by
  unfold State.closeFound State.closeOldest
  rw [show (s.onPort f).cur = s.cur from rfl]
  split
  · exact beginClose_onPort _ _ f s
  · rfl

theorem beginClose_room (n : Nat) (cause : CloseCause) (s : State) : (s.beginClose n cause).room = s.room := by
  unfold State.beginClose
  repeat' split
  all_goals rfl

theorem closeFound_room (s : State) : s.closeFound.room = s.room := by
  unfold State.closeFound State.closeOldest
  split
  · exact beginClose_room _ _ s
  · rfl

theorem startUp_room (boot : Boot) (fastBaud maintenance : Bool) (s : State) :
    (s.startUp boot fastBaud maintenance).room = .initial := by
  unfold State.startUp
  rw [closeFound_room]
  split <;> rfl

/-- Two start-ups that differ in the maintenance strap alone leave parts that differ in it alone. -/
theorem startUp_maintenance (boot : Boot) (fastBaud m maintenance : Bool) (s : State) :
    s.startUp boot fastBaud m =
      (s.startUp boot fastBaud maintenance).onPort fun p => { p with maintenance := m } := by
  unfold State.startUp
  rw [← closeFound_onPort]
  split <;> rfl

/-- With the maintenance strap clear, power-on leaves the window closed, as every start-up does. -/
theorem powerUp_clear (fastBaud : Bool) (boot : Boot) (s : State) :
    s.powerUp fastBaud false boot = s.startUp boot fastBaud false := by
  unfold State.powerUp
  have hroom := startUp_room boot fastBaud false s
  generalize s.startUp boot fastBaud false = started at hroom
  rw [State.onRoom, hroom]
  change ({ started with room := .initial } : State) = started
  rw [← hroom]

/-- Settles O53: the end of start-up, the two ways to a FULL_RESET, and how it differs from power-on. -/
theorem startUpEndsAndFullResetBeginsIt : Obligations.StartUpEndsAndFullResetBeginsIt := by
  refine ⟨fun t s hp => ?_, fun t s r hb rest hi => ?_, fun t s scope issue serial ha => ?_,
    fun t serial boot s hp hs => ?_, fun boot s => ?_⟩
  · rw [show exec (.startUpStage5 t) s = execStartUpStage5 t s from rfl, execStartUpStage5, occurs_powered hp,
      finishStartUp_eq, lockoutDuration_eq]
    rfl
  · rw [show exec (.fullReset t) s = execFullReset t s from rfl, execFullReset, occurs_powered hb.powered,
      request_begins t hb, replyWith_eq (s := s.atInstant t) hi]
    rfl
  · rw [show exec (.fullResetMessage t) s = execFullResetMessage t s from rfl, execFullResetMessage,
      occurs_powered ha.powered, dispatch_receive (k := .fullReset) t s scope issue _ ha rfl, takeFullReset_eq]
    rfl
  · rw [show exec (.resetSerialWriteComplete t serial boot) s = execResetSerialWriteComplete t serial boot s from rfl,
      execResetSerialWriteComplete, occurs_powered hp]
    exact congrArg _ (if_pos (List.contains_iff_mem.2 hs))
  · rw [show exec (.powerOn s.port.fastBaud false boot) s = .next (s.powerUp s.port.fastBaud false boot) from rfl,
      powerUp_clear, startUp_maintenance boot s.port.fastBaud false s.port.maintenance s]
    rfl

end Sys2Proof.Machine
end

section
/-! PROOF. Messages for the owners that take them as they come, and KEY_DELIVERY among them (R48, R52, R54, R56; O15). -/

namespace Sys2Proof.Machine

/-- A command that hands a message to an owner which takes it as it comes and leaves what was handed over behind it:
the message is taken, and what was handed over is judged (R41). -/
theorem exec_takesMessage {c : Instr} {t : Nat} {k : MsgKind} {f : MsgBody → State → State}
    (hc : ∀ s, exec c s = occurs t (·.dispatch k (.receive f)) s)
    (hf : ∀ m s, (f m s).decoder.handed = s.decoder.handed) {s : State} {scope : Scope} {issue : Nat}
    {body : MsgBody} (ha : Awaits s scope issue body) (hk : body.kind = k) :
    exec c s = .next ((f body (s.receiving scope issue body t)).judgeHanded s.decoder.handed) := by
  rw [hc, occurs_powered ha.powered, dispatch_receive t s scope issue body ha hk, hf]
  rfl

/-! ## The check byte (R52) -/

theorem toNat_foldl_add (l : List Byte) (a : Byte) :
    (l.foldl (· + ·) a).toNat = (a.toNat + (l.map (·.toNat)).sum) % 256 := by
  induction l generalizing a with
  | nil => exact (Nat.mod_eq_of_lt a.isLt).symm
  | cons b l ih =>
    rw [List.foldl_cons, ih, BitVec.toNat_add, List.map_cons, List.sum_cons]
    omega

theorem checkByteOk_iff (bytes : List Byte) (check : Byte) :
    checkByteOk bytes check = true ↔ (bytes.map (·.toNat)).sum % 256 = check.toNat := by
  rw [checkByteOk, beq_iff_eq, ← BitVec.toNat_inj, toNat_foldl_add]
  simp

/-! ## The cases of R56 -/

theorem newerThan_iff (e c : Epoch) :
    newerThan e c = true ↔
      1 ≤ (e.toNat + 256 - c.toNat) % 256 ∧ (e.toNat + 256 - c.toNat) % 256 ≤ 127 := by
  have hsub : (e - c).toNat = (e.toNat + 256 - c.toNat) % 256 := by
    rw [BitVec.toNat_sub]
    omega
  rw [newerThan, decide_eq_true_eq, hsub]

theorem epochIs_iff (k : Option CellKey) (e : Epoch) :
    epochIs k e = true ↔ ∃ c, k = some c ∧ c.epoch = e := by
  cases k <;> simp [epochIs]

/-- A delivered key whose epoch the record holds changes nothing. -/
theorem KeySlot.deliver_held {k : KeySlot} {inUse : Bool} {key : CellKey}
    (h : (∃ c, k.current = some c ∧ c.epoch = key.epoch) ∨ ∃ c, k.pending = some c ∧ c.epoch = key.epoch) :
    k.deliver inUse key = k := by
  rw [← epochIs_iff, ← epochIs_iff, ← Bool.or_eq_true] at h
  exact if_pos h

/-- A record with no current key takes the key as the current one. -/
theorem KeySlot.deliver_first {k : KeySlot} {inUse : Bool} {key : CellKey}
    (h : ¬ ((∃ c, k.current = some c ∧ c.epoch = key.epoch) ∨ ∃ c, k.pending = some c ∧ c.epoch = key.epoch))
    (hc : k.current = none) : k.deliver inUse key = { k with current := some key } := by
  rw [← epochIs_iff, ← epochIs_iff, ← Bool.or_eq_true] at h
  rw [KeySlot.deliver, if_neg h, hc]

/-- A key beside a current one: it is ignored where it is not newer, replaces the record where the parity is not in
use, and else becomes the pending key where it is newer than the pending one. -/
theorem KeySlot.deliver_beside {k : KeySlot} {inUse : Bool} {key c : CellKey}
    (h : ¬ ((∃ c, k.current = some c ∧ c.epoch = key.epoch) ∨ ∃ c, k.pending = some c ∧ c.epoch = key.epoch))
    (hc : k.current = some c) :
    k.deliver inUse key =
      if newerThan key.epoch c.epoch = true then
        if inUse = true then
          if ∀ q, k.pending = some q → newerThan key.epoch q.epoch = true then ⟨some c, some key⟩ else k
        else ⟨some key, none⟩
      else k := by
  rw [← epochIs_iff, ← epochIs_iff, ← Bool.or_eq_true] at h
  rw [KeySlot.deliver, if_neg h]
  cases hnew : newerThan key.epoch c.epoch with
  | false => simp [hc, hnew]
  | true =>
    cases inUse with
    | false => simp [hc, hnew]
    | true => cases hp : k.pending <;> simp [hc, hnew]

/-! ## KEY_DELIVERY (R54, R56) -/

theorem takeKeyDelivery_handed (m : MsgBody) (s : State) :
    (s.takeKeyDelivery m).decoder.handed = s.decoder.handed := by
  unfold State.takeKeyDelivery
  repeat' split
  all_goals rfl

/-- Under the group's access key, a delivery whose check byte fails is dropped, and any other is judged. -/
theorem takeKeyDelivery_unwrapped {s : State} {g : Nat} {access : Key} (h : s.accessKey g = some access)
    (p : Parity) (e : Epoch) (wrapped : List Byte) (check : Byte) :
    let bytes := unwrap access wrapped
    s.takeKeyDelivery (.keyDelivery g p e wrapped check) =
      if (bytes.map (·.toNat)).sum % 256 ≠ check.toNat then s.keyDropped
      else s.deliverKey g p ⟨keyOfBytes bytes, e⟩ := by
  simp only [State.takeKeyDelivery, h, checkByteOk_iff, ite_not]

/-- Settles O15: the outcomes of a KEY_DELIVERY by the access key, the check byte and the cases of R56. -/
theorem keyDeliveryIsJudgedByEpochAndUse : Obligations.KeyDeliveryIsJudgedByEpochAndUse := by
  intro t s scope issue g p e wrapped check ha s₀ slot
  refine ⟨s₀.takeKeyDelivery (.keyDelivery g p e wrapped check),
    exec_takesMessage (c := .keyDelivery t) (fun _ => rfl) takeKeyDelivery_handed ha rfl, ?_⟩
  have haccess : s₀.accessKey g = s.cur.accessKeys.getD g none := rfl
  cases hkey : s.cur.accessKeys.getD g none with
  | none => simp only [State.takeKeyDelivery, haccess, hkey]
  | some access =>
    rw [takeKeyDelivery_unwrapped (haccess.trans hkey)]
    dsimp only
    split
    case isTrue hbad => exact if_pos hbad
    case isFalse hgood =>
      refine ⟨slot.deliver (s.parityInUse g p) ⟨keyOfBytes (unwrap access wrapped), e⟩, if_neg hgood, ?_⟩
      split
      case isTrue hheld => exact KeySlot.deliver_held hheld
      case isFalse hheld =>
        split
        case h_1 hc => exact KeySlot.deliver_first hheld hc
        case h_2 c hc =>
          rw [KeySlot.deliver_beside hheld hc]
          simp only [← newerThan_iff]
          refine ⟨fun hnew => if_neg hnew, fun hnew huse => ?_, fun hnew huse => ⟨fun q hq hold => ?_, fun hall => ?_⟩⟩
          · rw [if_pos hnew, if_neg (by simp [huse])]
            rfl
          · rw [if_pos hnew, if_pos huse, if_neg fun hall => hold (hall q hq)]
          · rw [if_pos hnew, if_pos huse, if_pos hall]
            rfl

end Sys2Proof.Machine
end

section
/-! PROOF. What a well-formed message body carries, and which bodies are malformed (R42 to R49, R182; O11). -/

namespace Sys2Proof.Machine

/-! ## Fields (R180) -/

theorem leNat_lt (bs : List Byte) : leNat bs < 256 ^ bs.length := by
  induction bs with
  | nil => exact Nat.one_pos
  | cons b bs ih =>
    have := b.isLt
    rw [leNat, List.length_cons, pow_succ]
    omega

theorem field_one_lt (off : Nat) (b : List Byte) : field off 1 b < 256 := by
  have hlen : (fieldBytes off 1 b).length ≤ 1 := List.length_take_le _ _
  calc field off 1 b < 256 ^ (fieldBytes off 1 b).length := leNat_lt _
    _ ≤ 256 ^ 1 := Nat.pow_le_pow_right (by omega) hlen

/-- A byte field is the byte that it is made into. -/
theorem toNat_ofNat_field (off : Nat) (b : List Byte) : (BitVec.ofNat 8 (field off 1 b)).toNat = field off 1 b := by
  rw [BitVec.toNat_ofNat]
  exact Nat.mod_eq_of_lt (field_one_lt off b)

theorem field_one (off : Nat) (b : List Byte) (h : off < b.length) : field off 1 b = b[off].toNat := by
  rw [field, fieldBytes, List.drop_eq_getElem_cons h]
  exact Nat.add_zero _

theorem fieldBytes_four (off : Nat) (b : List Byte) (h : off + 3 < b.length) :
    fieldBytes off 4 b = [b[off], b[off + 1], b[off + 2], b[off + 3]] := by
  rw [fieldBytes, List.drop_eq_getElem_cons (by omega), List.drop_eq_getElem_cons (by omega),
    List.drop_eq_getElem_cons (by omega), List.drop_eq_getElem_cons (by omega)]
  rfl

/-- A field that lies within an item is that field of the bytes the item is taken from. -/
theorem field_item {off width size at_ : Nat} (b : List Byte) (h : off + width ≤ size) :
    field off width ((b.drop at_).take size) = field (at_ + off) width b := by
  have hwidth : min width (size - off) = width := by omega
  simp only [field, fieldBytes, List.drop_take, List.take_take, List.drop_drop, hwidth]

/-! ## Codes with few values -/

theorem boolOfNat_none_iff : ∀ n, boolOfNat n = none ↔ 1 < n
  | 0 | 1 | n + 2 => by simp [boolOfNat]

theorem boolOfNat_some {on : Bool} : ∀ {n}, boolOfNat n = some on → (on = true ↔ n = 1)
  | 0, h | 1, h => by cases h; decide
  | _ + 2, h => nomatch h

theorem parityOfNat_none_iff : ∀ n, parityOfNat n = none ↔ 1 < n
  | 0 | 1 | n + 2 => by simp [parityOfNat]

theorem parityOfNat_some {p : Parity} : ∀ {n}, parityOfNat n = some p → (p = .odd ↔ n = 1)
  | 0, h | 1, h => by cases h; decide
  | _ + 2, h => nomatch h

theorem sourceOfNat_none_iff : ∀ n, sourceOfNat n = none ↔ 1 < n
  | 0 | 1 | n + 2 => by simp [sourceOfNat]

theorem sourceOfNat_some {x : RatingSource} : ∀ {n}, sourceOfNat n = some x → (x = .lineupDefault ↔ n = 1)
  | 0, h | 1, h => by cases h; decide
  | _ + 2, h => nomatch h

/-! ## PIN fields (R44, R180) -/

/-- A PIN field with its presence byte is malformed by that byte alone. -/
theorem optionalPin_none_iff (present : Nat) (chars : List Byte) :
    optionalPin present chars = none ↔ 1 < present := by
  rw [← boolOfNat_none_iff, optionalPin]
  split <;> simp_all

theorem optionalPin_some {present : Nat} {chars : List Byte} {pin : Option Nat}
    (h : optionalPin present chars = some pin) : pin = if present = 1 then pinOfBytes chars else none := by
  unfold optionalPin at h
  split at h
  case h_1 hb => simpa [(boolOfNat_some hb).1 rfl] using h.symm
  case h_2 hb => simpa [← boolOfNat_some hb] using h.symm
  case h_3 => cases h

theorem digit_eq (x : Byte) : digit x = if 48 ≤ x.toNat ∧ x.toNat ≤ 57 then some (x.toNat - 48) else none := rfl

/-- Four characters spell a PIN where each is a decimal digit. -/
theorem pinOfBytes_digits (a b c d : Byte) :
    pinOfBytes [a, b, c, d] =
      if ∀ x ∈ [a, b, c, d], 48 ≤ x.toNat ∧ x.toNat ≤ 57 then
        some ((a.toNat - 48) * 1000 + (b.toNat - 48) * 100 + (c.toNat - 48) * 10 + (d.toNat - 48))
      else none := by
  have hall : (∀ x ∈ [a, b, c, d], 48 ≤ x.toNat ∧ x.toNat ≤ 57) ↔
      (digit a).isSome ∧ (digit b).isSome ∧ (digit c).isSome ∧ (digit d).isSome := by
    simp [digit_eq]
  rw [pinOfBytes]
  split
  case h_1 ha hb hc hd =>
    rw [if_pos (hall.2 (by simp [ha, hb, hc, hd]))]
    simp only [digit_eq, Option.ite_none_right_eq_some, Option.some.injEq] at ha hb hc hd
    congr 1
    omega
  case h_2 hnone =>
    refine (if_neg fun h => ?_).symm
    obtain ⟨ha, hb, hc, hd⟩ := hall.1 h
    exact hnone _ _ _ _ (Option.some_get ha).symm (Option.some_get hb).symm (Option.some_get hc).symm
      (Option.some_get hd).symm

/-- The PIN a body's field carries, by the numbers of its bytes. -/
theorem optionalPin_field {present off : Nat} {b : List Byte} {pin : Option Nat} (hlen : off + 4 ≤ b.length)
    (h : optionalPin (field present 1 b) (fieldBytes off 4 b) = some pin) :
    let c (i : Nat) : Nat := field (off + i) 1 b
    pin = if field present 1 b = 1 ∧ ∀ i < 4, 48 ≤ c i ∧ c i ≤ 57 then
        some ((c 0 - 48) * 1000 + (c 1 - 48) * 100 + (c 2 - 48) * 10 + (c 3 - 48))
      else none := by
  intro c
  have hc (i : Nat) (hi : i < 4) : c i = b[off + i].toNat := field_one (off + i) b (by omega)
  have hall : (∀ x ∈ [b[off], b[off + 1], b[off + 2], b[off + 3]], 48 ≤ x.toNat ∧ x.toNat ≤ 57) ↔
      ∀ i < 4, 48 ≤ c i ∧ c i ≤ 57 := by
    simp only [Nat.forall_lt_succ_left, List.forall_mem_cons]
    simp [hc]
  rw [optionalPin_some h, fieldBytes_four off b (by omega), pinOfBytes_digits, ite_and, hc 0 (by omega), hc 1 (by omega),
    hc 2 (by omega), hc 3 (by omega)]
  simp only [hall]
  rfl

/-! ## Records (R182) -/

theorem rawRecords_length (size : Nat) (record : List Byte → α) (count : Nat) (bs : List Byte) :
    (rawRecords size record count bs).length = count := by
  induction count generalizing bs with
  | zero => rfl
  | succ count ih => rw [rawRecords, List.length_cons, ih]

theorem rawRecords_getElem? {size : Nat} {record : List Byte → α} {count i : Nat} {bs : List Byte} {r : α}
    (h : (rawRecords size record count bs)[i]? = some r) : r = record ((bs.drop (size * i)).take size) := by
  induction count generalizing bs i with
  | zero => cases h
  | succ count ih =>
    cases i with
    | zero => exact (Option.some.inj h).symm
    | succ i =>
      rw [ih (i := i) h, List.drop_drop, Nat.mul_succ, Nat.add_comm]

/-! ## Bodies (R42 to R49, R182) -/

theorem parseBody_none_iff (k : MsgKind) (b : List Byte) :
    parseBody k b = none ↔ b.length ≠ bodyLength b k ∨ bodyFields b k = none := by
  rw [parseBody, ite_eq_right_iff, imp_iff_not_or]

theorem parseBody_some_iff {k : MsgKind} {b : List Byte} {body : MsgBody} :
    parseBody k b = some body ↔ b.length = bodyLength b k ∧ bodyFields b k = some body :=
  Option.ite_none_right_eq_some

/-- A policy body is malformed by its rating source alone (R46). -/
theorem policyOfBody_none_iff (b : List Byte) : policyOfBody b = none ↔ 1 < field 8 1 b := by
  rw [← sourceOfNat_none_iff, policyOfBody]
  split <;> simp_all

theorem policyOfBody_some {b : List Byte} {p : Policy} (h : policyOfBody b = some p) :
    ∃ source, sourceOfNat (field 8 1 b) = some source ∧ p =
      { preview := min 600 (field 0 2 b)
        grace := min 10 (field 2 1 b)
        window := max 1 (min 48 (field 3 1 b))
        unlockMinutes := max 15 (min 240 (field 4 1 b))
        roomUnlockHours := max 1 (min 24 (field 5 1 b))
        dayStart := min 23 (field 6 1 b)
        ceiling := min 5 (field 7 1 b)
        source := source } := by
  unfold policyOfBody at h
  split at h
  case h_1 source hsource =>
    cases h
    exact ⟨source, hsource, by simp only [clamp, Nat.zero_max]⟩
  case h_2 => cases h

/-- A KEY_DELIVERY is malformed by its group and its parity (R48). -/
theorem bodyFields_keyDelivery_none_iff (b : List Byte) :
    bodyFields b .keyDelivery = none ↔ 15 < field 0 1 b ∨ 1 < field 1 1 b := by
  rw [← parityOfNat_none_iff, bodyFields]
  cases parityOfNat (field 1 1 b) <;> simp

theorem bodyFields_keyDelivery_some {b : List Byte} {body : MsgBody} (h : bodyFields b .keyDelivery = some body) :
    ∃ p, parityOfNat (field 1 1 b) = some p ∧ body =
      .keyDelivery (field 0 1 b) p (BitVec.ofNat 8 (field 2 1 b)) (fieldBytes 3 8 b)
        (BitVec.ofNat 8 (field 11 1 b)) := by
  rw [bodyFields] at h
  split at h
  case h_1 p hp => exact ⟨p, hp, (Option.some.inj (Option.ite_none_right_eq_some.1 h).2).symm⟩
  case h_2 => cases h

/-- Settles O11: the malformed bodies of each kind, and the fields of the others. -/
theorem wellFormedBodyHoldsValuesInRange : Obligations.WellFormedBodyHoldsValuesInRange := by
  intro k b length malformed pinAt
  refine ⟨?_, fun body h => ⟨parseBody_kind h, ?_⟩⟩
  · rw [parseBody_none_iff]
    refine or_congr (by cases k <;> rfl) ?_
    cases k
    case checkIn | pinReset => exact Option.map_eq_none_iff.trans (optionalPin_none_iff _ _)
    case bar | lockdown => exact Option.map_eq_none_iff.trans (boolOfNat_none_iff _)
    case setPolicy => exact Option.map_eq_none_iff.trans (policyOfBody_none_iff b)
    case grantTier | revokeTier | groupKey | revokeGroup | setTime =>
      simp only [bodyFields, ite_eq_right_iff, reduceCtorEq, imp_false, not_le]
      rfl
    case lineup | catalogue =>
      simp only [bodyFields, ite_eq_right_iff, reduceCtorEq, imp_false, not_and_or, not_le, not_lt]
      rfl
    case keyDelivery => exact bodyFields_keyDelivery_none_iff b
    case fullReset => simp [bodyFields, malformed]
    case checkOut | setLimit | serviceOpen | serviceClose | setCeiling | releaseCharges | setRates | suspend | resume =>
      exact iff_of_false nofun id
  · obtain ⟨hlen, h⟩ := parseBody_some_iff.1 h
    cases k
    case checkIn =>
      obtain ⟨pin, hpin, rfl⟩ := Option.map_eq_some_iff.1 h
      exact ⟨rfl, rfl, optionalPin_field (off := 9) hlen.ge hpin⟩
    case pinReset =>
      obtain ⟨pin, hpin, rfl⟩ := Option.map_eq_some_iff.1 h
      exact optionalPin_field (off := 1) hlen.ge hpin
    case bar | lockdown =>
      obtain ⟨on, hon, rfl⟩ := Option.map_eq_some_iff.1 h
      exact boolOfNat_some hon
    case setPolicy =>
      obtain ⟨p, hp, rfl⟩ := Option.map_eq_some_iff.1 h
      obtain ⟨source, hsource, rfl⟩ := policyOfBody_some hp
      exact ⟨rfl, rfl, rfl, rfl, rfl, rfl, rfl, sourceOfNat_some hsource⟩
    case grantTier | revokeTier | revokeGroup =>
      cases (Option.ite_none_right_eq_some.1 h).2
      rfl
    case groupKey =>
      cases (Option.ite_none_right_eq_some.1 h).2
      exact ⟨rfl, rfl, toNat_ofNat_field 9 b⟩
    case setTime =>
      cases (Option.ite_none_right_eq_some.1 h).2
      exact ⟨rfl, rfl⟩
    case lineup =>
      cases (Option.ite_none_right_eq_some.1 h).2
      refine ⟨rfl, rfl, rfl, rawRecords_length _ _ _ _, fun i r hr => ?_⟩
      rw [rawRecords_getElem? hr]
      simp [rawService, List.drop_drop, field_item]
    case catalogue =>
      cases (Option.ite_none_right_eq_some.1 h).2
      refine ⟨rfl, rfl, rfl, rawRecords_length _ _ _ _, fun i r hr => ?_⟩
      rw [rawRecords_getElem? hr]
      simp [rawTitle, List.drop_drop, field_item]
    case keyDelivery =>
      obtain ⟨p, hp, rfl⟩ := bodyFields_keyDelivery_some h
      exact ⟨rfl, parityOfNat_some hp, toNat_ofNat_field 2 b, rfl, toNat_ofNat_field 11 b⟩
    case fullReset =>
      cases (Option.ite_none_left_eq_some.1 h).2
      rfl
    case serviceClose | suspend | resume =>
      cases h
      trivial
    case checkOut | serviceOpen | setCeiling | releaseCharges =>
      cases h
      rfl
    case setLimit =>
      cases h
      exact ⟨rfl, rfl⟩
    case setRates =>
      cases h
      exact ⟨rfl, rfl, rfl⟩

end Sys2Proof.Machine
end

section
/-! PROOF. Policy, rates and tier grants: the messages, and their writes' completions (R46, R47, R118; O12). -/

namespace Sys2Proof.Machine

/-! ## The messages -/

theorem takePolicy_eq (p : Policy) (s : State) :
    s.takePolicy p = { s with billing :=
      if s.billing.policyWrite ≠ none then { s.billing with policyNext := some p }
      else if s.cur.policy = p then s.billing
      else { s.billing with policyWrite := some p } } := by
  simp only [State.takePolicy, Option.isSome_iff_ne_none]
  split_ifs
  all_goals rfl

theorem takeRates_eq (r : Rates) (s : State) :
    s.takeRates r = { s with billing :=
      if s.billing.ratesWrite ≠ none then { s.billing with ratesNext := some r }
      else if s.cur.rates = r then s.billing
      else { s.billing with ratesWrite := some r } } := by
  simp only [State.takeRates, Option.isSome_iff_ne_none]
  split_ifs
  all_goals rfl

/-- A set with a tier granted or revoked has the tier or not, and every other tier as it was. -/
theorem getLsbD_setTier (tier : Nat) (granted : Bool) (set : BitVec 32) (i : Nat) (hi : i < 32) :
    (setTier tier granted set).getLsbD i = if i = tier then granted else set.getLsbD i := by
  have hbit : (BitVec.ofNat 32 (2 ^ tier)).getLsbD i = decide (i = tier) := by
    rw [BitVec.getLsbD_ofNat, Nat.testBit_two_pow]
    simp [hi, eq_comm]
  cases granted with
  | false =>
    rw [setTier, if_neg Bool.false_ne_true, BitVec.getLsbD_and, BitVec.getLsbD_not, hbit]
    by_cases h : i = tier <;> simp [hi, h]
  | true =>
    rw [setTier, if_pos rfl, BitVec.getLsbD_or, hbit]
    by_cases h : i = tier <;> simp [h]

theorem takeTier_eq (tier : Nat) (granted : Bool) (s : State) :
    s.takeTier tier granted = { s with billing :=
      match s.billing.tierWrite with
      | some w => { s.billing with tierNext := some (setTier tier granted (s.billing.tierNext.getD w)) }
      | none =>
        if ∃ p, s.port.provision = some p ∧ p.newRoom = true then
          { s.billing with tierNext := some (setTier tier granted (s.billing.tierNext.getD s.cur.tiers)) }
        else if setTier tier granted s.cur.tiers = s.cur.tiers then s.billing
        else { s.billing with tierWrite := some (setTier tier granted s.cur.tiers) } } := by
  simp only [State.takeTier, ← newRoomWriting_iff]
  cases hw : s.billing.tierWrite with
  | some w => simp only [State.onBilling, hw]
  | none =>
    dsimp only
    split_ifs
    all_goals simp only [State.onBilling, hw]

theorem takePolicyBody_handed (m : MsgBody) (s : State) :
    (State.takePolicyBody m s).decoder.handed = s.decoder.handed := by
  unfold State.takePolicyBody
  split
  · rw [takePolicy_eq]
  · rfl

theorem takeRatesBody_handed (m : MsgBody) (s : State) :
    (State.takeRatesBody m s).decoder.handed = s.decoder.handed := by
  unfold State.takeRatesBody
  split
  · rw [takeRates_eq]
  · rfl

theorem takeGrant_handed (m : MsgBody) (s : State) :
    (State.takeGrant m s).decoder.handed = s.decoder.handed := by
  unfold State.takeGrant
  split
  · rw [takeTier_eq]
  · rfl

theorem takeRevocation_handed (m : MsgBody) (s : State) :
    (State.takeRevocation m s).decoder.handed = s.decoder.handed := by
  unfold State.takeRevocation
  split
  · rw [takeTier_eq]
  · rfl

/-! ## The next values, compared and written -/

/-- With nothing kept, what follows a policy write leaves the Billing Unit as it is. -/
theorem Billing.noPolicy_eq {b : Billing} (hw : b.policyWrite = none) (hn : b.policyNext = none) :
    { b with policyNext := none, policyWrite := none } = b := by
  cases b
  cases hw
  cases hn
  rfl

theorem Billing.noRates_eq {b : Billing} (hw : b.ratesWrite = none) (hn : b.ratesNext = none) :
    { b with ratesNext := none, ratesWrite := none } = b := by
  cases b
  cases hw
  cases hn
  rfl

/-- A kept next policy is written where it differs from the one in use. -/
theorem nextPolicy_eq {s : State} (hw : s.billing.policyWrite = none) :
    s.nextPolicy = { s with billing := { s.billing with
      policyNext := none
      policyWrite := if s.billing.policyNext = some s.cur.policy then none else s.billing.policyNext } } := by
  unfold State.nextPolicy
  cases hn : s.billing.policyNext with
  | none => simp [Billing.noPolicy_eq hw hn]
  | some p =>
    dsimp only
    rw [takePolicy_eq]
    by_cases h : s.cur.policy = p
    · simp [State.onBilling, hw, h]
    · simp [State.onBilling, hw, h, Ne.symm h]

theorem nextRates_eq {s : State} (hw : s.billing.ratesWrite = none) :
    s.nextRates = { s with billing := { s.billing with
      ratesNext := none
      ratesWrite := if s.billing.ratesNext = some s.cur.rates then none else s.billing.ratesNext } } := by
  unfold State.nextRates
  cases hn : s.billing.ratesNext with
  | none => simp [Billing.noRates_eq hw hn]
  | some r =>
    dsimp only
    rw [takeRates_eq]
    by_cases h : s.cur.rates = r
    · simp [State.onBilling, hw, h]
    · simp [State.onBilling, hw, h, Ne.symm h]

theorem nextTiers_eq (s : State) :
    s.nextTiers = { s with billing := { s.billing with
      tierNext := none
      tierWrite := if s.billing.tierNext = some s.cur.tiers then none else s.billing.tierNext } } := by
  unfold State.nextTiers
  cases hn : s.billing.tierNext <;> simp [State.onBilling, hn]

/-! ## The completions -/

/-- The policy whose write is in flight is in use and durable. -/
def State.policySet (p : Policy) (s : State) : State :=
  (s.durably fun r => { r with policy := p }).onBilling fun b => { b with policyWrite := none }

/-- The lapses and runs that a new policy brings leave what was kept behind its write. -/
theorem nextPolicy_told {set s : State} (h : OnlyLapses set s) {p : Policy} (hp : set.cur.policy = p)
    (hw : set.billing.policyWrite = none) :
    s.nextPolicy = { s with billing := { s.billing with
      policyNext := none
      policyWrite := if set.billing.policyNext = some p then none else set.billing.policyNext } } := by
  have hpolicy : s.cur.policy = p := by rw [h.cur]; exact hp
  have hnext : s.billing.policyNext = set.billing.policyNext := by rw [h.billing]
  rw [nextPolicy_eq (by rw [h.billing]; exact hw), hpolicy, hnext]

theorem exec_policyWriteComplete {t : Nat} {s : State} {p : Policy} (hp : s.power ≠ .off)
    (hw : s.billing.policyWrite = some p) :
    let set := (s.atInstant t).policySet p
    exec (.policyWriteComplete t) s = .next ((set.judgeLapses (set.rerated s)).rerunAll).nextPolicy := by
  rw [show exec (.policyWriteComplete t) s = execPolicyWriteComplete t s from rfl, execPolicyWriteComplete,
    occurs_powered hp]
  simp only [show (s.atInstant t).billing.policyWrite = some p from hw]
  rfl

theorem exec_ratesWriteComplete {t : Nat} {s : State} {r : Rates} (hp : s.power ≠ .off)
    (hw : s.billing.ratesWrite = some r) :
    exec (.ratesWriteComplete t) s = .next
      (((s.atInstant t).durably fun x => { x with rates := r }).onBilling
        fun b => { b with ratesWrite := none }).nextRates := by
  rw [show exec (.ratesWriteComplete t) s = execRatesWriteComplete t s from rfl, execRatesWriteComplete,
    occurs_powered hp]
  simp only [show (s.atInstant t).billing.ratesWrite = some r from hw]

theorem exec_tierWriteComplete {t : Nat} {s : State} {set : BitVec 32} (hp : s.power ≠ .off)
    (hw : s.billing.tierWrite = some set) :
    exec (.tierWriteComplete t) s = .next
      (((s.atInstant t).durably fun r => { r with tiers := set }).nextTiers).rerunAll := by
  rw [show exec (.tierWriteComplete t) s = execTierWriteComplete t s from rfl, execTierWriteComplete,
    occurs_powered hp]
  simp only [show (s.atInstant t).billing.tierWrite = some set from hw]

/-- A tier message, taken: the set it makes of another, and what becomes of the write and of the next set (R118). -/
theorem exec_takesTier {c : Instr} {t : Nat} {k : MsgKind} {f : MsgBody → State → State} {s : State} {scope : Scope}
    {issue tier : Nat} {body : MsgBody} (granted : Bool)
    (hc : ∀ s, exec c s = occurs t (·.dispatch k (.receive f)) s)
    (hf : ∀ m s, (f m s).decoder.handed = s.decoder.handed) (ht : f body = State.takeTier tier granted)
    (ha : Awaits s scope issue body) (hk : body.kind = k) :
    let changed := setTier tier granted
    let s₀ := s.receiving scope issue body t
    let next (b : Billing) : Out := .next ({ s₀ with billing := b }.judgeHanded s.decoder.handed)
    exec c s = match s.billing.tierWrite with
      | some w => next { s.billing with tierNext := some (changed (s.billing.tierNext.getD w)) }
      | none =>
        if ∃ p, s.port.provision = some p ∧ p.newRoom = true then
          next { s.billing with tierNext := some (changed (s.billing.tierNext.getD s.cur.tiers)) }
        else if changed s.cur.tiers = s.cur.tiers then next s.billing
        else next { s.billing with tierWrite := some (changed s.cur.tiers) } := by
  intro changed s₀ next
  rw [exec_takesMessage hc hf ha hk, ht, takeTier_eq,
    show (s.receiving scope issue body t).billing = s.billing from rfl,
    show (s.receiving scope issue body t).port = s.port from rfl,
    show (s.receiving scope issue body t).cur = s.cur from rfl]
  split
  · rfl
  · dsimp only
    split_ifs
    all_goals rfl

/-- Settles O12: the four messages, and the three completions. -/
theorem policyRatesAndTiersChangeAtTheirWritesCompletion :
    Obligations.PolicyRatesAndTiersChangeAtTheirWritesCompletion := by
  refine ⟨fun t s scope issue p ha => ?_, fun t s scope issue r ha => ?_, fun t s p hp hw => ?_,
    fun t s r hp hw => ?_, ?_, fun t s set hp hw => ?_⟩
  · rw [exec_takesMessage (c := .setPolicy t) (fun _ => rfl) takePolicyBody_handed ha rfl]
    exact congrArg (fun s₁ : State => Host.Outcome.next (s₁.judgeHanded s.decoder.handed)) (takePolicy_eq p _)
  · rw [exec_takesMessage (c := .setRates t) (fun _ => rfl) takeRatesBody_handed ha rfl]
    exact congrArg (fun s₁ : State => Host.Outcome.next (s₁.judgeHanded s.decoder.handed)) (takeRates_eq r _)
  · have ran := lapsedAndReran_rerun (((s.atInstant t).policySet p).rerated (s.atInstant t)) allScreens
      ((s.atInstant t).policySet p)
    exact ⟨_, exec_policyWriteComplete hp hw, _, ran, nextPolicy_told ran.toOnlyLapses rfl rfl⟩
  · rw [exec_ratesWriteComplete hp hw, nextRates_eq rfl]
    rfl
  · simp only [List.forall_mem_cons, List.not_mem_nil, false_implies, implies_true, and_true]
    refine ⟨fun t s scope issue tier ha => ⟨setTier tier true, getLsbD_setTier tier true, ?_⟩,
      fun t s scope issue tier ha => ⟨setTier tier false, getLsbD_setTier tier false, ?_⟩⟩
    · exact exec_takesTier (c := .grantTier t) true (fun _ => rfl) takeGrant_handed rfl ha rfl
    · exact exec_takesTier (c := .revokeTier t) false (fun _ => rfl) takeRevocation_handed rfl ha rfl
  · refine ⟨_, exec_tierWriteComplete hp hw, ?_⟩
    rw [nextTiers_eq]
    exact reran_rerun _ _

end Sys2Proof.Machine
end

section
/-! PROOF. The LINEUP message: the judgement of a service record, the lineup it joins, and the assembly of the parts
(R42, R114 to R116; O28). -/

namespace Sys2Proof.Machine

/-! ## The judgement of a service record (R114) -/

theorem RawService.judgeKind_none_iff (r : RawService) :
    r.judgeKind = none ↔ 3 < r.kind ∨ r.kind = 1 ∧ 31 < r.tier := by
  unfold RawService.judgeKind
  split
  case h_2 hk => simp [hk]
  case h_5 h0 h1 h2 h3 =>
    simp only [imp_false] at h0 h1 h2 h3
    have : 3 < r.kind := by omega
    simp [this]
  all_goals simp_all

/-- The kind is what the record's fields spell, clamped. -/
def ServiceKind.ReadFrom (r : RawService) : ServiceKind → Prop
  | .free => r.kind = 0
  | .tier n => r.kind = 1 ∧ n = r.tier
  | .film => r.kind = 2
  | .metered m => r.kind = 3 ∧ m.minutes = max 1 (min 60 r.minutes) ∧
    m.price = min 9999 r.price ∧ m.cap = min 999999 r.cap ∧ m.free = min 600 r.free

theorem RawService.judgeKind_some {r : RawService} {kind : ServiceKind} (h : r.judgeKind = some kind) :
    kind.ReadFrom r := by
  unfold RawService.judgeKind at h
  split at h
  case h_1 hk => cases h; exact hk
  case h_2 hk =>
    cases (Option.ite_none_right_eq_some.1 h).2
    exact ⟨hk, rfl⟩
  case h_3 hk => cases h; exact hk
  case h_4 hk => cases h; exact ⟨hk, rfl, rfl, rfl, rfl⟩
  case h_5 => cases h

theorem RawService.judgeGroup_none_iff (r : RawService) :
    r.judgeGroup = none ↔ 1 < r.scrambled ∨ r.scrambled = 1 ∧ 15 < r.keyGroup := by
  unfold RawService.judgeGroup
  split
  case h_2 hs => simp [hs]
  case h_3 h0 h1 =>
    simp only [imp_false] at h0 h1
    have : 1 < r.scrambled := by omega
    simp [this]
  all_goals simp_all

theorem RawService.judgeGroup_some {r : RawService} {group : Option Nat} (h : r.judgeGroup = some group) :
    group = if r.scrambled = 1 then some r.keyGroup else none := by
  unfold RawService.judgeGroup at h
  split at h
  case h_1 hs => cases h; simp [hs]
  case h_2 hs =>
    rw [if_pos hs]
    exact (Option.some.inj (Option.ite_none_right_eq_some.1 h).2).symm
  case h_3 => cases h

theorem RawService.judge_none_iff (r : RawService) :
    r.judge = none ↔ r.service = 0 ∨ 4094 < r.service ∨ r.position = 0 ∨ 999 < r.position ∨
      3 < r.kind ∨ r.kind = 1 ∧ 31 < r.tier ∨ 1 < r.scrambled ∨ r.scrambled = 1 ∧ 15 < r.keyGroup := by
  have hjudge : r.judge = none ↔ ¬ (1 ≤ r.service ∧ r.service ≤ 4094 ∧ 1 ≤ r.position ∧ r.position ≤ 999) ∨
      r.judgeKind = none ∨ r.judgeGroup = none := by
    unfold RawService.judge
    cases r.judgeKind <;> cases r.judgeGroup <;> simp [imp_iff_not_or]
  rw [hjudge, r.judgeKind_none_iff, r.judgeGroup_none_iff]
  omega

theorem RawService.judge_some {r : RawService} {x : Service} (h : r.judge = some x) :
    ∃ kind group, r.judgeKind = some kind ∧ r.judgeGroup = some group ∧
      x = ⟨r.service, r.position, kind, group, min 5 r.rating⟩ := by
  obtain ⟨-, h⟩ := Option.ite_none_right_eq_some.1 h
  split at h
  case h_1 kind group hk hg => exact ⟨kind, group, hk, hg, (Option.some.inj h).symm⟩
  case h_2 => cases h

/-! ## A record joins the lineup (R115) -/

/-- A list with an item put into it, the one of its key before it gone, in order where the list was. -/
def JoinedBy (key : α → Nat) (x : α) (old l : List α) : Prop :=
  (∀ y, y ∈ l ↔ y = x ∨ y ∈ old ∧ key y ≠ key x) ∧
    (old.Pairwise (fun y z => key y < key z) → l.Pairwise fun y z => key y < key z)

/-- An item joins a list as it is put among the items of other keys, in their order. -/
theorem joinedBy_insertBy {key : α → Nat} {x : α} {old rest : List α}
    (hrest : ∀ y, y ∈ rest ↔ y ∈ old ∧ key y ≠ key x) (hs : rest.Sublist old) :
    JoinedBy key x old (insertBy key x rest) := by
  refine ⟨fun y => ?_, fun hsorted => insertBy_sorted (hsorted.sublist hs) fun y hy => ((hrest y).1 hy).2⟩
  rw [(insertBy_perm key x rest).mem_iff, List.mem_cons, hrest]

/-- The record would be a ninth METERED one. -/
def Service.Ninth (x : Service) (l : List Service) : Prop := x.kind.isMetered = true ∧ 8 ≤ meteredCount l

/-- A service with no record is added while there is room for it. -/
theorem addToLineup_new {x : Service} {l : List Service} (h : l.find? (fun y => y.number == x.number) = none) :
    ((96 ≤ l.length ∨ x.Ninth l) → addToLineup x l = (l, false)) ∧
      (¬ (96 ≤ l.length ∨ x.Ninth l) → addToLineup x l = (insertService x l, true)) := by
  unfold addToLineup Service.Ninth
  rw [h]
  by_cases hfull : 96 ≤ l.length <;> simp [hfull]

/-- A service with a record is replaced, or removed where it would become a ninth METERED one. -/
theorem addToLineup_held {x y : Service} {l : List Service} (h : l.find? (fun y => y.number == x.number) = some y) :
    (x.Ninth l → y.kind.isMetered = false → addToLineup x l = (removeService x.number l, true)) ∧
      (¬ (x.Ninth l ∧ y.kind.isMetered = false) →
        addToLineup x l = (insertService x (removeService x.number l), true)) := by
  unfold addToLineup Service.Ninth
  rw [h]
  grind

theorem joinedBy_insertService {x : Service} {old : List Service} (h : ∀ y ∈ old, y.number ≠ x.number) :
    JoinedBy (·.number) x old (insertService x old) :=
  insertService_eq x old ▸ joinedBy_insertBy (fun y => (and_iff_left_of_imp (h y)).symm) (.refl old)

theorem joinedBy_replaceService (x : Service) (old : List Service) :
    JoinedBy (·.number) x old (insertService x (removeService x.number old)) :=
  insertService_eq x _ ▸ joinedBy_insertBy (by simp [removeService]) List.filter_sublist

/-- The lineup becomes `l`, and the change of the record of service n is reported (R55, R85, R100, R115). -/
def State.LineupChanged (n : Nat) (l : List Service) (s s' : State) : Prop :=
  let base := (s.setLineup l).promoteKeys
  LapsedAndReran (base.rerated s) (base.routedTo n) base s'

theorem addService_unjudged {raw : RawService} {s : State} (h : raw.judge = none) : s.addService raw = s := by
  rw [State.addService, h]

/-- A record whose channel position another service holds has no effect. -/
theorem addService_positionHeld {raw : RawService} {x : Service} {s : State} (h : raw.judge = some x)
    (hposition : ∃ y ∈ s.billing.lineup, y.position = x.position ∧ y.number ≠ x.number) : s.addService raw = s := by
  simp only [State.addService, h]
  exact if_pos (by simpa using hposition)

/-- A record whose channel position is free has the effect it has on the lineup. -/
theorem addService_positionFree {raw : RawService} {x : Service} {s : State} (h : raw.judge = some x)
    (hposition : ¬ ∃ y ∈ s.billing.lineup, y.position = x.position ∧ y.number ≠ x.number) {l : List Service} :
    (addToLineup x s.billing.lineup = (l, false) → s.addService raw = s) ∧
      (addToLineup x s.billing.lineup = (l, true) → s.LineupChanged x.number l (s.addService raw)) := by
  have hadded : s.addService raw = if (addToLineup x s.billing.lineup).2 then
      (s.setLineup (addToLineup x s.billing.lineup).1).serviceChanged x.number s else s := by
    simp only [State.addService, h]
    exact if_neg (by simpa using hposition)
  rw [hadded]
  refine ⟨fun ha => by rw [ha]; rfl, fun ha => ?_⟩
  rw [ha]
  exact lapsedAndReran_rerun _ _ _

/-- A record of a service with none is discarded, or joins the lineup. -/
theorem addService_new {raw : RawService} {x : Service} {s : State} (h : raw.judge = some x)
    (hposition : ¬ ∃ y ∈ s.billing.lineup, y.position = x.position ∧ y.number ≠ x.number)
    (hy : s.service x.number = none) :
    ((96 ≤ s.billing.lineup.length ∨ x.Ninth s.billing.lineup) → s.addService raw = s) ∧
      (¬ (96 ≤ s.billing.lineup.length ∨ x.Ninth s.billing.lineup) →
        ∃ l, s.LineupChanged x.number l (s.addService raw) ∧ JoinedBy (·.number) x s.billing.lineup l) := by
  obtain ⟨hfull, hroom⟩ := addToLineup_new hy
  have hnone : ∀ y ∈ s.billing.lineup, y.number ≠ x.number := by simpa [State.service] using hy
  exact ⟨fun hn => (addService_positionFree h hposition).1 (hfull hn),
    fun hn => ⟨_, (addService_positionFree h hposition).2 (hroom hn), joinedBy_insertService hnone⟩⟩

/-- A record of a service with one takes its place, but a ninth METERED one removes it. -/
theorem addService_held {raw : RawService} {x y : Service} {s : State} (h : raw.judge = some x)
    (hposition : ¬ ∃ y ∈ s.billing.lineup, y.position = x.position ∧ y.number ≠ x.number)
    (hy : s.service x.number = some y) :
    (x.Ninth s.billing.lineup → y.kind.isMetered = false →
      s.LineupChanged x.number (removeService x.number s.billing.lineup) (s.addService raw)) ∧
      (¬ (x.Ninth s.billing.lineup ∧ y.kind.isMetered = false) →
        ∃ l, s.LineupChanged x.number l (s.addService raw) ∧ JoinedBy (·.number) x s.billing.lineup l) := by
  obtain ⟨hninth, hreplaced⟩ := addToLineup_held hy
  exact ⟨fun hn hm => (addService_positionFree h hposition).2 (hninth hn hm),
    fun hn => ⟨_, (addService_positionFree h hposition).2 (hreplaced hn), joinedBy_replaceService x _⟩⟩

/-! ## The assembly of the parts (R42, R116) -/

theorem addService_decoder (raw : RawService) (s : State) : (s.addService raw).decoder = s.decoder := by
  unfold State.addService
  split
  · split_ifs
    · rfl
    · exact (lapsedAndReran_rerun _ _ _).decoder
    · rfl
  · rfl

/-- The records of a part are added one by one. -/
def State.addServices (records : List RawService) (s : State) : State :=
  records.foldl (fun s raw => s.addService raw) s

theorem addServices_handed (records : List RawService) (s : State) :
    (s.addServices records).decoder.handed = s.decoder.handed := by
  induction records generalizing s with
  | nil => rfl
  | cons raw rest ih => exact (ih (s.addService raw)).trans (congrArg Decoder.handed (addService_decoder raw s))

/-- The four outcomes of a LINEUP part, by the version held, the index and the part count. -/
theorem takeLineup_cases (version index count : Nat) (records : List RawService) (s : State) :
    let a := s.decoder.lineup
    let held (s : State) (a : Assembly) : State := { s with decoder := { s.decoder with lineup := a } }
    let taken := s.takeLineup version index count records
    (a.version ≠ some version →
      taken = (held s.emptyLineup ⟨some version, count, [index]⟩).addServices records) ∧
    (a.version = some version → index ∈ a.held → taken = s) ∧
    (a.version = some version → index ∉ a.held → a.parts ≠ count → taken = s.countDrop) ∧
    (a.version = some version → index ∉ a.held → a.parts = count →
      taken = (held s { a with held := a.held ++ [index] }).addServices records) := by
  dsimp only
  unfold State.takeLineup
  simp only [List.contains_iff_mem]
  refine ⟨fun hv => if_pos hv, fun hv hi => ?_, fun hv hi hc => ?_, fun hv hi hc => ?_⟩
  · rw [if_neg (not_not.2 hv), if_pos hi]
  · rw [if_neg (not_not.2 hv), if_neg hi, if_pos hc]
  · rw [if_neg (not_not.2 hv), if_neg hi, if_neg (not_not.2 hc)]
    rfl

theorem emptyLineup_told (s : State) :
    LapsedAndReran ((s.setLineup []).promoteKeys.rerated s) allScreens (s.setLineup []).promoteKeys s.emptyLineup :=
  lapsedAndReran_rerun _ _ _

theorem takeLineup_handed (version index count : Nat) (records : List RawService) (s : State) :
    (s.takeLineup version index count records).decoder.handed = s.decoder.handed := by
  unfold State.takeLineup
  split_ifs
  · have hempty : s.emptyLineup.decoder.handed = s.decoder.handed :=
      (onlyLapses_handed (emptyLineup_told s).toOnlyLapses :)
    exact (addServices_handed records _).trans hempty
  · rfl
  · rfl
  · exact addServices_handed records _

theorem takeLineupBody_handed (m : MsgBody) (s : State) :
    (State.takeLineupBody m s).decoder.handed = s.decoder.handed := by
  unfold State.takeLineupBody
  split
  · exact takeLineup_handed _ _ _ _ s
  · rfl

/-- Settles O28: the assembly of the parts, the judgement of a record, and what a judged record makes of the lineup. -/
theorem lineupPartsAreAssembledAndTheirRecordsAdded : Obligations.LineupPartsAreAssembledAndTheirRecordsAdded := by
  refine ⟨fun t s scope issue version index count records ha => ?_, fun raw => ⟨raw.judge_none_iff, fun x hx => ?_⟩,
    fun raw s => ⟨addService_unjudged, fun x hx => ?_⟩⟩
  · intro s₀ held added a
    obtain ⟨hnew, hrepeated, hother, hjoins⟩ := takeLineup_cases version index count records s₀
    exact ⟨_, exec_takesMessage (c := .lineup t) (fun _ => rfl) takeLineupBody_handed ha rfl,
      fun hv => ⟨_, emptyLineup_told s₀, hnew hv⟩, hrepeated, hother, hjoins⟩
  · obtain ⟨kind, group, hk, hg, rfl⟩ := RawService.judge_some hx
    exact ⟨rfl, rfl, rfl, RawService.judgeGroup_some hg, RawService.judgeKind_some hk⟩
  · intro old ninth heldMetered changed
    split
    case isTrue hp => exact addService_positionHeld hx hp
    case isFalse hp =>
      rcases Option.eq_none_or_eq_some (s.service x.number) with hy | ⟨y, hy⟩
      · obtain ⟨hdiscarded, hjoins⟩ := addService_new hx hp hy
        split
        case isTrue h => exact hdiscarded h.2
        case isFalse h =>
          rw [if_neg fun h => h.1 hy]
          exact hjoins fun hn => h ⟨hy, hn⟩
      · obtain ⟨hremoved, hreplaced⟩ := addService_held hx hp hy
        have hsome : s.service x.number ≠ none := by simp [hy]
        have hmetered : heldMetered ↔ y.kind.isMetered = true := by simp [heldMetered, hy]
        rw [if_neg fun h => hsome h.1]
        split
        case isTrue h => exact hremoved h.2.1 (Bool.eq_false_iff.2 (hmetered.not.1 h.2.2))
        case isFalse h =>
          exact hreplaced fun hn => h ⟨hsome, hn.1, hmetered.not.2 (Bool.eq_false_iff.1 hn.2)⟩

end Sys2Proof.Machine
end

section
/-! PROOF. The CATALOGUE message: the title records it adds, and the assembly of the parts (R43, R117; O29). -/

namespace Sys2Proof.Machine

/-! ## A title record joins the catalogue (R117) -/

/-- A new title is discarded where the catalogue is full. -/
theorem addToCatalogue_full {x : Title} {l : List Title} (hnew : ∀ y ∈ l, y.title ≠ x.title) (hfull : 64 ≤ l.length) :
    addToCatalogue x l = none := by
  rw [addToCatalogue, if_neg (by simpa using hnew), if_pos hfull]

/-- Any other title takes the place of the record held, or is added. -/
theorem addToCatalogue_joined {x : Title} {l : List Title} (h : ¬ (64 ≤ l.length ∧ ∀ y ∈ l, y.title ≠ x.title)) :
    ∃ l', addToCatalogue x l = some l' ∧ JoinedBy (·.title) x l l' := by
  unfold addToCatalogue
  split
  case isTrue hheld =>
    exact ⟨_, rfl, insertTitle_eq x _ ▸ joinedBy_insertBy (by simp) List.filter_sublist⟩
  case isFalse hnone =>
    have hnew : ∀ y ∈ l, y.title ≠ x.title := by simpa using hnone
    rw [if_neg fun hfull => h ⟨hfull, hnew⟩]
    exact ⟨_, rfl, insertTitle_eq x l ▸ joinedBy_insertBy (fun y => (and_iff_left_of_imp (hnew y)).symm) (.refl l)⟩

/-- The clamped record of a title (R117). -/
def RawTitle.clamped (r : RawTitle) : Title := ⟨r.title, min 99999 r.price, min 5 r.rating, min 48 r.window⟩

theorem RawTitle.judge_eq (r : RawTitle) : r.judge = if r.title = 0 then none else some r.clamped := rfl

theorem setCatalogue_told (l : List Title) (s : State) :
    let changed : State := { s with billing := { s.billing with catalogue := l } }
    LapsedAndReran (changed.rerated s) allScreens changed (s.setCatalogue l) :=
  lapsedAndReran_rerun _ _ _

theorem titleRecord_none_iff (s : State) (title : Nat) :
    s.titleRecord title = none ↔ ∀ y ∈ s.billing.catalogue, y.title ≠ title := by
  simp [State.titleRecord]

/-- A record with no title, or of a new title that meets a full catalogue, has no effect. -/
theorem addTitle_discarded {raw : RawTitle} {s : State}
    (h : raw.title = 0 ∨ 64 ≤ s.billing.catalogue.length ∧ s.titleRecord raw.title = none) :
    s.addTitle raw = s := by
  rw [titleRecord_none_iff] at h
  unfold State.addTitle
  rw [raw.judge_eq]
  by_cases hzero : raw.title = 0
  · rw [if_pos hzero]
  · obtain ⟨hfull, hnew⟩ := h.resolve_left hzero
    rw [if_neg hzero]
    dsimp only
    rw [addToCatalogue_full (x := raw.clamped) hnew hfull]

/-- Any other record joins the catalogue, and the change is told. -/
theorem addTitle_joined {raw : RawTitle} {s : State}
    (h : ¬ (raw.title = 0 ∨ 64 ≤ s.billing.catalogue.length ∧ s.titleRecord raw.title = none)) :
    ∃ l, s.addTitle raw = s.setCatalogue l ∧ JoinedBy (·.title) raw.clamped s.billing.catalogue l := by
  rw [titleRecord_none_iff, not_or] at h
  obtain ⟨hzero, hroom⟩ := h
  obtain ⟨l, hl, hjoined⟩ := addToCatalogue_joined (x := raw.clamped) hroom
  refine ⟨l, ?_, hjoined⟩
  unfold State.addTitle
  rw [raw.judge_eq, if_neg hzero]
  dsimp only
  rw [hl]

/-! ## The assembly of the parts (R43) -/

theorem addTitle_decoder (raw : RawTitle) (s : State) : (s.addTitle raw).decoder = s.decoder := by
  unfold State.addTitle
  split
  · split
    · exact (setCatalogue_told _ s).decoder
    · rfl
  · rfl

/-- The records of a part are added one by one. -/
def State.addTitles (records : List RawTitle) (s : State) : State :=
  records.foldl (fun s raw => s.addTitle raw) s

theorem addTitles_handed (records : List RawTitle) (s : State) :
    (s.addTitles records).decoder.handed = s.decoder.handed := by
  induction records generalizing s with
  | nil => rfl
  | cons raw rest ih => exact (ih (s.addTitle raw)).trans (congrArg Decoder.handed (addTitle_decoder raw s))

/-- The four outcomes of a CATALOGUE part, by the version held, the index and the part count. -/
theorem takeCatalogue_cases (version index count : Nat) (records : List RawTitle) (s : State) :
    let a := s.decoder.catalogue
    let held (s : State) (a : Assembly) : State := { s with decoder := { s.decoder with catalogue := a } }
    let taken := s.takeCatalogue version index count records
    (a.version ≠ some version →
      taken = (held (s.setCatalogue []) ⟨some version, count, [index]⟩).addTitles records) ∧
    (a.version = some version → index ∈ a.held → taken = s) ∧
    (a.version = some version → index ∉ a.held → a.parts ≠ count → taken = s.countDrop) ∧
    (a.version = some version → index ∉ a.held → a.parts = count →
      taken = (held s { a with held := a.held ++ [index] }).addTitles records) := by
  dsimp only
  unfold State.takeCatalogue
  simp only [List.contains_iff_mem]
  refine ⟨fun hv => if_pos hv, fun hv hi => ?_, fun hv hi hc => ?_, fun hv hi hc => ?_⟩
  · rw [if_neg (not_not.2 hv), if_pos hi]
  · rw [if_neg (not_not.2 hv), if_neg hi, if_pos hc]
  · rw [if_neg (not_not.2 hv), if_neg hi, if_neg (not_not.2 hc)]
    rfl

theorem takeCatalogue_handed (version index count : Nat) (records : List RawTitle) (s : State) :
    (s.takeCatalogue version index count records).decoder.handed = s.decoder.handed := by
  unfold State.takeCatalogue
  split_ifs
  · have hset : (s.setCatalogue []).decoder.handed = s.decoder.handed :=
      (onlyLapses_handed (setCatalogue_told [] s).toOnlyLapses :)
    exact (addTitles_handed records _).trans hset
  · rfl
  · rfl
  · exact addTitles_handed records _

theorem takeCatalogueBody_handed (m : MsgBody) (s : State) :
    (State.takeCatalogueBody m s).decoder.handed = s.decoder.handed := by
  unfold State.takeCatalogueBody
  split
  · exact takeCatalogue_handed _ _ _ _ s
  · rfl

/-- Settles O29: the assembly of the parts, and what a title record makes of the catalogue. -/
theorem cataloguePartsAreAssembledAndTheirRecordsAdded : Obligations.CataloguePartsAreAssembledAndTheirRecordsAdded := by
  refine ⟨fun t s scope issue version index count records ha => ?_, fun raw s => ?_⟩
  · intro s₀ held added a
    obtain ⟨hnew, hrepeated, hother, hjoins⟩ := takeCatalogue_cases version index count records s₀
    exact ⟨_, exec_takesMessage (c := .catalogue t) (fun _ => rfl) takeCatalogueBody_handed ha rfl,
      fun hv => ⟨_, setCatalogue_told [] s₀, hnew hv⟩, hrepeated, hother, hjoins⟩
  · intro old x
    split
    case isTrue h => exact addTitle_discarded h
    case isFalse h =>
      obtain ⟨l, hl, hjoined⟩ := addTitle_joined h
      exact ⟨l, hl ▸ setCatalogue_told l s, hjoined⟩

end Sys2Proof.Machine
end

section
/-! PROOF. The laws of the engines and of the cell keys (R50, R57, R69, R70): what they say engine by engine and slot
by slot, and which changes of the Engine Pool and of the Key Store keep them. -/

namespace Sys2Proof.Machine

/-! ## The binding law, engine by engine (R69, R70) -/

theorem mem_three (f : Three α) (x : α) : x ∈ f.toList ↔ ∃ e, f.get e = x := by
  simp [Three.toList, Three.get, Fin.exists_fin_succ, eq_comm]

/-- `BindingLaw` of a pool, engine by engine. -/
structure Pool.Lawful (p : Pool) : Prop where
  apart : ∀ d e n, (p.engines.get d).bound = some n → (p.engines.get e).bound = some n → d = e
  waiting : (p.wait.map (·.service)).Nodup
  unserved : ∀ n ∈ p.wait.map (·.service), ∀ e, (p.engines.get e).bound ≠ some n
  full : p.wait ≠ [] → ∀ e, (p.engines.get e).bound.isSome = true

theorem mem_boundServices (s : State) (n : Nat) : n ∈ s.boundServices ↔ ∃ e, (s.engine e).bound = some n := by
  simp [State.boundServices, mem_three, State.engine]

theorem nodup_boundServices (s : State) :
    s.boundServices.Nodup ↔ ∀ d e n, (s.engine d).bound = some n → (s.engine e).bound = some n → d = e := by
  have listed : s.boundServices = allEngines.filterMap fun e => (s.engine e).bound := rfl
  rw [listed]
  constructor
  · intro h d e n hd he
    simp only [allEngines, List.Nodup, List.pairwise_filterMap, List.pairwise_cons, List.forall_mem_cons] at h
    fin_cases d <;> fin_cases e <;> simp_all
  · intro h
    exact List.Nodup.filterMap (fun d e n hd he => h d e n hd he) (by decide)

theorem bindingLaw_iff (s : State) : s.BindingLaw ↔ s.pool.Lawful := by
  constructor
  · rintro ⟨hapart, hwaiting, hunserved, hfull⟩
    refine ⟨(nodup_boundServices s).1 hapart, hwaiting, fun n hn e he => ?_, hfull⟩
    obtain ⟨w, hw, rfl⟩ := List.mem_map.1 hn
    exact hunserved w hw ((mem_boundServices s _).2 ⟨e, he⟩)
  · rintro ⟨hapart, hwaiting, hunserved, hfull⟩
    refine ⟨(nodup_boundServices s).2 hapart, hwaiting, fun w hw hb => ?_, hfull⟩
    obtain ⟨e, he⟩ := (mem_boundServices s _).1 hb
    exact hunserved _ (List.mem_map_of_mem hw) e he

namespace Pool.Lawful

variable {p : Pool}

/-- Nothing waits while an engine is unbound. -/
theorem wait_nil (h : p.Lawful) {e : EngineId} (he : (p.engines.get e).bound = none) : p.wait = [] := by
  by_contra hw
  simpa [he] using h.full hw e

/-- A pool with no engine bound and an empty wait list. -/
theorem unbound {es : Three Engine} (h : ∀ e, (es.get e).bound = none) : (⟨es, []⟩ : Pool).Lawful :=
  ⟨fun d _ _ hd => by simp [h] at hd, .nil, fun _ hn => by simp at hn, fun hw => absurd rfl hw⟩

/-- The engines change and stay bound as they were. -/
theorem sameBound (h : p.Lawful) {es : Three Engine} (hb : ∀ e, (es.get e).bound = (p.engines.get e).bound) :
    (⟨es, p.wait⟩ : Pool).Lawful := by
  obtain ⟨hapart, hwaiting, hunserved, hfull⟩ := h
  refine ⟨?_, hwaiting, ?_, ?_⟩ <;> simpa only [hb]

/-- Services leave the wait list. -/
theorem rewait (h : p.Lawful) {ws : List WaitEntry} (hs : (ws.map (·.service)).Sublist (p.wait.map (·.service))) :
    (⟨p.engines, ws⟩ : Pool).Lawful where
  apart := h.apart
  waiting := h.waiting.sublist hs
  unserved n hn := h.unserved n (hs.subset hn)
  full hw := h.full fun hnil => hw (by simpa [hnil] using hs)

/-- An engine is bound to a service that neither another engine has nor waits. -/
theorem bind (h : p.Lawful) {e : EngineId} {x : Engine} {n : Nat} (hx : x.bound = some n)
    (hn : ∀ d, (p.engines.get d).bound ≠ some n) (hw : n ∉ p.wait.map (·.service)) :
    (⟨p.engines.set x e, p.wait⟩ : Pool).Lawful where
  apart d f m hd hf := by
    by_cases hde : d = e <;> by_cases hfe : f = e
    · rw [hde, hfe]
    · subst hde
      rw [Three.get_set_same, hx] at hd
      rw [Three.get_set_other _ _ hfe] at hf
      exact absurd (hf.trans hd.symm) (hn f)
    · subst hfe
      rw [Three.get_set_same, hx] at hf
      rw [Three.get_set_other _ _ hde] at hd
      exact absurd (hd.trans hf.symm) (hn d)
    · rw [Three.get_set_other _ _ hde] at hd
      rw [Three.get_set_other _ _ hfe] at hf
      exact h.apart d f m hd hf
  waiting := h.waiting
  unserved m hm d hd := by
    by_cases hde : d = e
    · subst hde
      rw [Three.get_set_same, hx] at hd
      exact hw (Option.some.inj hd ▸ hm)
    · rw [Three.get_set_other _ _ hde] at hd
      exact h.unserved m hm d hd
  full hne d := by
    by_cases hde : d = e
    · subst hde
      simp [hx]
    · rw [Three.get_set_other _ _ hde]
      exact h.full hne d

/-- An engine stands free while nothing waits. -/
theorem unbind (h : p.Lawful) {e : EngineId} {x : Engine} (hx : x.bound = none) (hw : p.wait = []) :
    (⟨p.engines.set x e, p.wait⟩ : Pool).Lawful := by
  have old : ∀ d n, ((p.engines.set x e).get d).bound = some n → (p.engines.get d).bound = some n := by
    intro d n hd
    by_cases hde : d = e
    · subst hde
      simp [hx] at hd
    · rwa [Three.get_set_other _ _ hde] at hd
  exact ⟨fun d f n hd hf => h.apart d f n (old d n hd) (old f n hf), h.waiting,
    fun n hn => by simp [hw] at hn, fun hne => absurd hw hne⟩

end Pool.Lawful

/-! ## The wait list (R70) -/

theorem services_unwait (o : Screen) (ws : List WaitEntry) :
    ((unwait o ws).map (·.service)).Sublist (ws.map (·.service)) := by
  have kept := (List.filter_sublist (p := fun w : WaitEntry => !w.outputs.isEmpty)
    (l := ws.map fun w => { w with outputs := w.outputs.filter (· != o) })).map (·.service)
  simpa only [unwait, List.map_map, Function.comp_def] using kept

theorem services_joinWait (o : Screen) (n : Nat) (ws : List WaitEntry) :
    (joinWait o n ws).map (·.service) =
      if n ∈ ws.map (·.service) then ws.map (·.service) else ws.map (·.service) ++ [n] := by
  have hany : (ws.any (·.service == n)) = true ↔ n ∈ ws.map (·.service) := by simp
  unfold joinWait
  simp only [hany]
  split
  · rw [List.map_map]
    refine List.map_congr_left fun w _ => ?_
    simp only [Function.comp]
    split <;> rfl
  · simp

/-- A service with no engine joins the wait list where every engine is bound. -/
theorem Pool.Lawful.join {p : Pool} (h : p.Lawful) (o : Screen) {n : Nat}
    (hfull : ∀ e, (p.engines.get e).bound.isSome = true) (hn : ∀ e, (p.engines.get e).bound ≠ some n) :
    (⟨p.engines, joinWait o n p.wait⟩ : Pool).Lawful := by
  refine ⟨h.apart, ?_, fun m hm => ?_, fun _ => hfull⟩ <;>
    simp only [services_joinWait] at * <;> split at *
  case refine_1.isTrue => exact h.waiting
  case refine_1.isFalse hnew => simpa [List.nodup_append] using ⟨h.waiting, by simpa using hnew⟩
  case refine_2.isTrue => exact h.unserved m hm
  case refine_2.isFalse =>
    rcases List.mem_append.1 hm with hm | hm
    · exact h.unserved m hm
    · rwa [List.mem_singleton.1 hm]

/-! ## The engines that the cases of R69 find -/

theorem engineWhere_some {s : State} {p : Engine → Bool} {e : EngineId} (h : s.engineWhere p = some e) :
    p (s.engine e) = true :=
  List.find?_some (p := fun e => p (s.engine e)) h

theorem engineWhere_none {s : State} {p : Engine → Bool} (h : s.engineWhere p = none) (e : EngineId) :
    p (s.engine e) = false := by
  have hmem : ∀ e : EngineId, e ∈ allEngines := by decide
  simpa using List.find?_eq_none.1 h e (hmem e)

theorem boundEngine_none {s : State} {n : Nat} (h : s.boundEngine n = none) (e : EngineId) :
    (s.engine e).bound ≠ some n := by
  simpa using engineWhere_none h e

theorem Engine.bound_isReady {x : Engine} (h : x.isReady = true) : x.bound = none := by
  cases x <;> simp_all [Engine.isReady, Engine.bound]

theorem Engine.bound_isFreeWarming {x : Engine} (h : x.isFreeWarming = true) : x.bound = none := by
  unfold Engine.isFreeWarming at h
  split at h
  · rfl
  · cases h

theorem Engine.bound_isOff {x : Engine} (h : x.isOff = true) : x.bound = none := by
  cases x <;> simp_all [Engine.isOff, Engine.bound]

/-- An engine that none of the cases 2 to 4 of R69 takes is bound. -/
theorem Engine.bound_isSome {x : Engine} (hready : x.isReady = false) (hfree : x.isFreeWarming = false)
    (hoff : x.isOff = false) : x.bound.isSome = true := by
  cases x with
  | warming target d => cases target <;> simp_all [Engine.isFreeWarming, Engine.bound]
  | _ => simp_all [Engine.isReady, Engine.isOff, Engine.bound]

/-! ## The operations of the Engine Pool keep the binding law -/

theorem pool_holdAll (e : EngineId) (outs : List Screen) (s : State) : (s.holdAll e outs).pool = s.pool := by
  unfold State.holdAll
  induction outs generalizing s with
  | nil => rfl
  | cons o os ih => exact ih _

theorem bindingLaw_congr {s s' : State} (h : s'.pool = s.pool) (hs : s.BindingLaw) : s'.BindingLaw := by
  rw [bindingLaw_iff] at hs ⊢
  rwa [h]

theorem bindingLaw_sameBound {s s' : State} (hw : s'.pool.wait = s.pool.wait)
    (hb : ∀ e, (s'.engine e).bound = (s.engine e).bound) (hs : s.BindingLaw) : s'.BindingLaw := by
  rw [bindingLaw_iff] at hs ⊢
  have kept := hs.sameBound hb
  rwa [← hw] at kept

theorem bindingLaw_unwait (o : Screen) {s : State} (hs : s.BindingLaw) : (s.onWait (unwait o)).BindingLaw := by
  rw [bindingLaw_iff] at hs ⊢
  exact hs.rewait (services_unwait o _)

/-- While an engine is unbound, any engine may be bound to a service that has none (R69, R72). -/
theorem bindingLaw_setEngine {s : State} (hs : s.BindingLaw) {d e : EngineId} {x : Engine} {n : Nat}
    (hd : (s.engine d).bound = none) (hn : ∀ f, (s.engine f).bound ≠ some n) (hx : x.bound = some n) :
    (s.setEngine e x).BindingLaw := by
  rw [bindingLaw_iff] at hs ⊢
  exact hs.bind hx hn (by simp [hs.wait_nil hd])

/-- The oldest entry of the wait list leaves it with an engine bound to its service (R71). -/
theorem bindingLaw_serveWait {s : State} (hs : s.BindingLaw) {w : WaitEntry} {ws : List WaitEntry}
    (hw : s.pool.wait = w :: ws) (e : EngineId) {x : Engine} (hx : x.bound = some w.service) :
    ((s.onWait fun _ => ws).setEngine e x).BindingLaw := by
  rw [bindingLaw_iff] at hs ⊢
  have hwaiting := hs.waiting
  rw [hw, List.map_cons, List.nodup_cons] at hwaiting
  exact (hs.rewait (ws := ws) (by simp [hw])).bind hx (hs.unserved _ (by simp [hw])) hwaiting.1

theorem bindingLaw_freeEngine (e : EngineId) {s : State} (hs : s.BindingLaw) : (s.freeEngine e).1.BindingLaw := by
  have free {x : Engine} (hw : s.pool.wait = []) (hx : x.bound = none) : (s.setEngine e x).BindingLaw := by
    rw [bindingLaw_iff] at hs ⊢
    exact hs.unbind hx hw
  unfold State.freeEngine
  split
  case h_1 hw => split <;> first | exact free hw rfl | exact hs
  case h_2 w ws hw =>
    split
    case h_3 => exact hs
    all_goals exact bindingLaw_congr (pool_holdAll _ _ _) (bindingLaw_serveWait hs hw e rfl)

theorem bindingLaw_obtainEngine (o : Screen) (n : Nat) {s : State} (hs : s.BindingLaw) :
    (s.obtainEngine o n).BindingLaw := by
  have taken {d : EngineId} {x : Engine} (hbound : s.boundEngine n = none) (hd : (s.engine d).bound = none)
      (hx : x.bound = some n) : ((s.onWait (unwait o)).setEngine d x).BindingLaw :=
    bindingLaw_setEngine (bindingLaw_unwait o hs) hd (boundEngine_none hbound) hx
  unfold State.obtainEngine
  split
  case h_1 => exact bindingLaw_congr rfl (bindingLaw_unwait o hs)
  case h_2 hbound =>
    split
    case h_1 e he => exact bindingLaw_congr rfl (taken hbound (Engine.bound_isReady (engineWhere_some he)) rfl)
    case h_2 hready =>
      split
      case h_1 e he =>
        exact bindingLaw_congr rfl (taken hbound (Engine.bound_isFreeWarming (engineWhere_some he)) rfl)
      case h_2 hfree =>
        split
        case h_1 e he => exact bindingLaw_congr rfl (taken hbound (Engine.bound_isOff (engineWhere_some he)) rfl)
        case h_2 hoff =>
          rw [bindingLaw_iff] at hs ⊢
          exact hs.join o (fun e => Engine.bound_isSome (engineWhere_none hready e) (engineWhere_none hfree e)
            (engineWhere_none hoff e)) (boundEngine_none hbound)

/-- Where no engine has service `n` and one is unbound, any engine may be rebound to `n` (R72). -/
theorem bindingLaw_rebind (e : EngineId) {n : Nat} {d : EngineId} {s : State} (hs : s.BindingLaw)
    (hd : (s.engine d).bound = none) (hn : s.boundEngine n = none) : (s.rebind e n).BindingLaw := by
  unfold State.rebind
  split
  case h_1 => exact hs
  all_goals exact bindingLaw_setEngine hs hd (boundEngine_none hn) rfl

/-- An engine changes and stays bound as it was. -/
theorem bindingLaw_setEngine_same {e : EngineId} {x : Engine} {s : State} (hx : x.bound = (s.engine e).bound)
    (hs : s.BindingLaw) : (s.setEngine e x).BindingLaw := by
  refine bindingLaw_sameBound (s := s) rfl (fun d => ?_) hs
  by_cases hde : d = e
  · subst hde
    simpa [State.setEngine, State.engine] using hx
  · simp [State.setEngine, State.engine, Three.get_set_other _ _ hde]

theorem bindingLaw_endWarmUp (e : EngineId) {s : State} (hs : s.BindingLaw) : (s.endWarmUp e).1.BindingLaw := by
  unfold State.endWarmUp
  split
  case h_1 n d he => exact bindingLaw_setEngine_same (by rw [he]; rfl) hs
  case h_2 d he =>
    split
    case h_1 => exact bindingLaw_setEngine_same (by rw [he]; rfl) hs
    case h_2 w ws hw => exact bindingLaw_congr (pool_holdAll _ _ _) (bindingLaw_serveWait hs hw e rfl)
  case h_3 => exact hs

end Sys2Proof.Machine
end

section
/-! PROOF. What keeps the laws of the engines and of the cell keys: operations that leave what the laws read, the
promotion of pending keys, changes of one key group, and runs of verdicts (R57, R69 to R73, R81 to R85). -/

namespace Sys2Proof.Machine

/-! ## The key law, slot by slot (R50, R57) -/

/-- `KeyLaw` of one slot, by whether its parity is in use. -/
def KeySlot.Lawful (inUse : Bool) (k : KeySlot) : Prop :=
  k.pending.isSome = true → k.current.isSome = true ∧ inUse = true

theorem keyLaw_iff (s : State) : s.KeyLaw ↔ ∀ g p, ((s.keyGroup g).slot p).Lawful (s.parityInUse g p) := Iff.rfl

/-- The half of `KeyLaw` that does not read the engines: a pending key stands only beside a current one. -/
def KeyGroup.Paired (k : KeyGroup) : Prop :=
  ∀ p, (k.slot p).pending.isSome = true → (k.slot p).current.isSome = true

theorem KeyGroup.paired_empty : KeyGroup.empty.Paired := fun p h => by cases p <;> cases h

theorem keyLaw_paired {s : State} (h : s.KeyLaw) : ∀ k ∈ s.keys, k.Paired := by
  intro k hk p hp
  obtain ⟨g, hg, rfl⟩ := List.getElem_of_mem hk
  have hgroup : s.keyGroup g = s.keys[g] := by simp [State.keyGroup, hg]
  rw [← hgroup] at hp ⊢
  exact (h g p hp).1

theorem KeySlot.promote_pending (k : KeySlot) : k.promote.pending = none := by
  unfold KeySlot.promote
  split
  · rfl
  · assumption

theorem KeyGroup.slot_promote (evenUsed oddUsed : Bool) (k : KeyGroup) (p : Parity) :
    (k.promote evenUsed oddUsed).slot p = k.slot p ∨
      ((k.promote evenUsed oddUsed).slot p).pending = none := by
  cases p
  · cases evenUsed
    · exact .inr (KeySlot.promote_pending _)
    · exact .inl rfl
  · cases oddUsed
    · exact .inr (KeySlot.promote_pending _)
    · exact .inl rfl

theorem paired_of_keysRan {old new : List KeyGroup} (h : KeysRan old new) (ho : ∀ k ∈ old, k.Paired) :
    ∀ k ∈ new, k.Paired := by
  intro k' hk' p hp
  obtain ⟨k, hk, evenUsed, oddUsed, rfl⟩ := forall₂_source h hk'
  rcases k.slot_promote evenUsed oddUsed p with hsame | hnone
  · rw [hsame] at hp ⊢
    exact ho k hk p hp
  · simp [hnone] at hp

theorem getD_promoteFrom (used : Nat → Parity → Bool) (first i : Nat) (ks : List KeyGroup) :
    (promoteFrom used first ks).getD i .empty =
      (ks.getD i .empty).promote (used (first + i) .even) (used (first + i) .odd) := by
  have hempty (a b : Bool) : KeyGroup.empty.promote a b = .empty := by cases a <;> cases b <;> rfl
  induction ks generalizing first i with
  | nil => simp [promoteFrom, hempty]
  | cons k ks ih =>
    cases i with
    | zero => rfl
    | succ i =>
      simp only [promoteFrom, List.getD_cons_succ, ih]
      rw [Nat.add_right_comm, Nat.add_assoc]

theorem keyGroup_promoteKeys (s : State) (g : Nat) :
    s.promoteKeys.keyGroup g = (s.keyGroup g).promote (s.parityInUse g .even) (s.parityInUse g .odd) := by
  have promoted := getD_promoteFrom s.parityInUse 0 g s.keys
  rwa [Nat.zero_add] at promoted

/-- After the promotion every pending key is of a parity in use (R57). -/
theorem keyLaw_promoteKeys {s : State} (h : ∀ k ∈ s.keys, k.Paired) : s.promoteKeys.KeyLaw := by
  intro g p hp
  have hpaired : ∀ k ∈ s.promoteKeys.keys, k.Paired := paired_of_keysRan (keysRan_promoteFrom _ _ _) h
  constructor
  · by_cases hg : g < s.promoteKeys.keys.length
    · have hgroup : s.promoteKeys.keyGroup g = s.promoteKeys.keys[g] := by simp [State.keyGroup, hg]
      rw [hgroup] at hp ⊢
      exact hpaired _ (List.getElem_mem hg) p hp
    · have hgroup : s.promoteKeys.keyGroup g = .empty := by simp [State.keyGroup, Nat.le_of_not_lt hg]
      rw [hgroup] at hp ⊢
      exact KeyGroup.paired_empty p hp
  · show s.parityInUse g p = true
    rw [keyGroup_promoteKeys] at hp
    by_contra hu
    rw [Bool.not_eq_true] at hu
    cases p <;> simp [KeyGroup.promote, KeyGroup.slot, hu, KeySlot.promote_pending] at hp

/-- With no key held there is no pending one. -/
theorem keyLaw_of_empty {s : State} {n : Nat} (h : s.keys = List.replicate n .empty) : s.KeyLaw := by
  intro g p hp
  have hgroup : s.keyGroup g = .empty := by
    simp only [State.keyGroup, h, List.getD_eq_getElem?_getD, List.getElem?_replicate]
    split <;> rfl
  rw [hgroup] at hp
  cases p <;> cases hp

/-- The cases of R56 put a pending key only beside a current one of a parity in use. -/
theorem KeySlot.lawful_deliver {k : KeySlot} {inUse : Bool} (key : CellKey) (hk : k.Lawful inUse) :
    (k.deliver inUse key).Lawful inUse := by
  unfold KeySlot.deliver
  split
  case isTrue => exact hk
  case isFalse =>
    split
    case h_1 hnone => exact fun hp => absurd (hk hp).1 (by simp [hnone])
    case h_2 c hc =>
      split
      case isTrue => exact hk
      case isFalse =>
        split
        case isTrue => exact fun hp => by cases hp
        case isFalse huse =>
          have hboth (key : Option CellKey) : KeySlot.Lawful inUse { k with pending := key } :=
            fun _ => ⟨by simp [hc], by simpa using huse⟩
          split
          case h_1 => exact hboth _
          case h_2 =>
            split
            · exact hboth _
            · exact hk

/-! ## Engines that decode as they did (R55) -/

/-- The service and the parity of an ACTIVE engine that has decoded a cell. -/
def Engine.decodes : Engine → Option (Nat × Parity)
  | .active n (some p) _ => some (n, p)
  | _ => none

theorem engineUses_iff (s : State) (g : Nat) (p : Parity) (x : Engine) :
    s.engineUses g p x = true ↔ ∃ n, x.decodes = some (n, p) ∧ s.groupOf n = some g := by
  unfold State.engineUses Engine.decodes
  split <;> simp

theorem parityInUse_iff (s : State) (g : Nat) (p : Parity) :
    s.parityInUse g p = true ↔ ∃ e n, (s.engine e).decodes = some (n, p) ∧ s.groupOf n = some g := by
  simp only [State.parityInUse, List.any_eq_true, mem_three, engineUses_iff, State.engine]
  exact ⟨fun ⟨_, ⟨e, rfl⟩, n, h⟩ => ⟨e, n, h⟩, fun ⟨e, n, h⟩ => ⟨_, ⟨e, rfl⟩, n, h⟩⟩

/-- Two engines are bound to one service and decode alike. -/
def Engine.Same (x y : Engine) : Prop := y.bound = x.bound ∧ y.decodes = x.decodes

theorem parityInUse_same {s s' : State} (hl : s'.billing.lineup = s.billing.lineup)
    (he : ∀ e, (s.engine e).Same (s'.engine e)) (g : Nat) (p : Parity) :
    s'.parityInUse g p = s.parityInUse g p := by
  have hgroup (n : Nat) : s'.groupOf n = s.groupOf n := by simp only [State.groupOf, State.service, hl]
  rw [Bool.eq_iff_iff, parityInUse_iff, parityInUse_iff]
  simp only [(he _).2, hgroup]

/-! ## What it is to keep the laws -/

/-- The laws of the engines and of the cell keys hold of `s'` where they hold of `s`. -/
structure EnginesKept (s s' : State) : Prop where
  binding : s.BindingLaw → s'.BindingLaw
  keys : s.KeyLaw → s'.KeyLaw

/-- What the two laws read: the Engine Pool, the cell keys and the lineup. -/
def State.descrambling (s : State) : Pool × List KeyGroup × List Service := (s.pool, s.keys, s.billing.lineup)

namespace EnginesKept

variable {a s s' : State}

theorem refl (s : State) : EnginesKept s s := ⟨id, id⟩

theorem trans (h : EnginesKept a s) (k : EnginesKept s s') : EnginesKept a s' :=
  ⟨k.binding ∘ h.binding, k.keys ∘ h.keys⟩

/-- Engines that stay bound and decode as they did, beside the same wait list, keys and lineup. -/
theorem same (h : EnginesKept a s) (hw : s'.pool.wait = s.pool.wait)
    (he : ∀ e, (s.engine e).Same (s'.engine e)) (hk : s'.keys = s.keys)
    (hl : s'.billing.lineup = s.billing.lineup) : EnginesKept a s' := by
  refine h.trans ⟨bindingLaw_sameBound hw fun e => (he e).1, fun hs => ?_⟩
  rw [keyLaw_iff] at hs ⊢
  intro g p
  rw [parityInUse_same hl he, State.keyGroup, hk]
  exact hs g p

/-- An operation that leaves what the laws read. -/
theorem frame (h : s'.descrambling = s.descrambling) (k : EnginesKept a s) : EnginesKept a s' := by
  simp only [State.descrambling, Prod.mk.injEq] at h
  obtain ⟨hpool, hkeys, hlineup⟩ := h
  refine k.same (by rw [hpool]) (fun e => ?_) hkeys hlineup
  rw [State.engine, State.engine, hpool]
  exact ⟨rfl, rfl⟩

theorem framed (h : s'.descrambling = s.descrambling) : EnginesKept s s' := (refl s).frame h

/-- Whatever becomes of the engines and of the lineup, the promotion of the pending keys puts the key law right. -/
theorem promoted (h : EnginesKept a s) (hb : s.BindingLaw → s'.BindingLaw) (hk : KeysRan s.keys s'.keys) :
    EnginesKept a s'.promoteKeys :=
  h.trans ⟨fun hs => bindingLaw_congr rfl (hb hs),
    fun hs => keyLaw_promoteKeys (paired_of_keysRan hk (keyLaw_paired hs))⟩

theorem ite {c : Prop} [Decidable c] (h : EnginesKept a s) (k : EnginesKept a s') :
    EnginesKept a (if c then s else s') := by
  split
  · exact h
  · exact k

theorem foldl {f : State → α → State} (h : ∀ s x, EnginesKept s (f s x)) (l : List α) (k : EnginesKept a s) :
    EnginesKept a (l.foldl f s) := by
  induction l generalizing s with
  | nil => exact k
  | cons x xs ih => exact ih (k.trans (h s x))

end EnginesKept

end Sys2Proof.Machine
end

section
/-! PROOF. The operations that leave the Engine Pool, the cell keys and the lineup as they are. -/

namespace Sys2Proof.Machine.State

/-! ## The updaters of the other blocks -/

section

variable (s : State)

@[simp] theorem descrambling_atInstant (t : Nat) : (s.atInstant t).descrambling = s.descrambling := rfl
@[simp] theorem descrambling_onTime (f) : (s.onTime f).descrambling = s.descrambling := rfl
@[simp] theorem descrambling_onCur (f) : (s.onCur f).descrambling = s.descrambling := rfl
@[simp] theorem descrambling_onStore (f) : (s.onStore f).descrambling = s.descrambling := rfl
@[simp] theorem descrambling_durably (f) : (s.durably f).descrambling = s.descrambling := rfl
@[simp] theorem descrambling_onRoom (f) : (s.onRoom f).descrambling = s.descrambling := rfl
@[simp] theorem descrambling_onCells (f) : (s.onCells f).descrambling = s.descrambling := rfl
@[simp] theorem descrambling_onDecoder (f) : (s.onDecoder f).descrambling = s.descrambling := rfl
@[simp] theorem descrambling_onRouter (f) : (s.onRouter f).descrambling = s.descrambling := rfl
@[simp] theorem descrambling_onOutput (o f) : (s.onOutput o f).descrambling = s.descrambling := rfl
@[simp] theorem descrambling_onOutputs (f) : (s.onOutputs f).descrambling = s.descrambling := rfl
@[simp] theorem descrambling_onLock (f) : (s.onLock f).descrambling = s.descrambling := rfl
@[simp] theorem descrambling_onTurns (f) : (s.onTurns f).descrambling = s.descrambling := rfl
@[simp] theorem descrambling_onJournal (f) : (s.onJournal f).descrambling = s.descrambling := rfl
@[simp] theorem descrambling_onPort (f) : (s.onPort f).descrambling = s.descrambling := rfl
@[simp] theorem descrambling_onSerials (f) : (s.onSerials f).descrambling = s.descrambling := rfl
@[simp] theorem descrambling_onChoices (f) : (s.onChoices f).descrambling = s.descrambling := rfl

/-- The Billing Unit, but for the lineup. -/
@[simp] theorem descrambling_onBilling (f : Billing → Billing) (h : ∀ b, (f b).lineup = b.lineup) :
    (s.onBilling f).descrambling = s.descrambling := by
  simp [descrambling, h]

theorem descrambling_ite (c : Prop) [Decidable c] (x y : State) :
    (if c then x else y).descrambling = if c then x.descrambling else y.descrambling := apply_ite _ _ _ _

end

section

variable (s : State)

/-! ## Events, writes that take turns, the journal and the sessions -/

@[simp] theorem descrambling_raise (c : EventClass) : (s.raise c).descrambling = s.descrambling := rfl

@[simp] theorem descrambling_raiseTimes (c : EventClass) (n : Nat) :
    (s.raiseTimes c n).descrambling = s.descrambling := by
  induction n generalizing s with
  | zero => rfl
  | succ n ih => exact ih _

@[simp] theorem descrambling_turnsAdvance : s.turnsAdvance.descrambling = s.descrambling := rfl

@[simp] theorem descrambling_fallDue (w : TurnWrite) : (s.fallDue w).descrambling = s.descrambling := rfl

@[simp] theorem descrambling_meterChanged : s.meterChanged.descrambling = s.descrambling := by
  unfold meterChanged
  split <;> rfl

@[simp] theorem descrambling_presentedChanged : s.presentedChanged.descrambling = s.descrambling := by
  unfold presentedChanged
  split <;> rfl

@[simp] theorem descrambling_viewingChanged : s.viewingChanged.descrambling = s.descrambling :=
  descrambling_onBilling _ _ fun b => by split <;> rfl

@[simp] theorem descrambling_useOrder (matters : Bool) : (s.useOrder matters).descrambling = s.descrambling := by
  unfold useOrder
  split <;> rfl

@[simp] theorem descrambling_occupancyRose : s.occupancyRose.descrambling = s.descrambling := by
  unfold occupancyRose
  split <;> rfl

@[simp] theorem descrambling_occupancyFell : s.occupancyFell.descrambling = s.descrambling := by
  unfold occupancyFell
  split <;> rfl

@[simp] theorem descrambling_appendRecord (r : ChargeRecord) : (s.appendRecord r).descrambling = s.descrambling := rfl

@[simp] theorem descrambling_present (r : ChargeRecord) : (s.present r).descrambling = s.descrambling := by
  simp [present]

@[simp] theorem descrambling_beginClose (n : Nat) (cause : CloseCause) :
    (s.beginClose n cause).descrambling = s.descrambling := by
  unfold beginClose
  repeat' split
  all_goals rfl

@[simp] theorem descrambling_closeOldest (cause : CloseCause) (p : Session → Bool) :
    (s.closeOldest cause p).descrambling = s.descrambling := by
  unfold closeOldest
  split
  · exact descrambling_beginClose ..
  · rfl

@[simp] theorem descrambling_openSession (n : Nat) (time : PTime) :
    (s.openSession n time).descrambling = s.descrambling := by
  simp [openSession]

@[simp] theorem descrambling_askMeter (n : Nat) (t : MeterTerms) (time : PTime) :
    (s.askMeter n t time).1.descrambling = s.descrambling := by
  unfold askMeter
  repeat' split
  all_goals first | rfl | exact descrambling_closeOldest .. | exact descrambling_openSession ..

@[simp] theorem descrambling_addDaySpend (n units : Nat) : (s.addDaySpend n units).descrambling = s.descrambling := by
  unfold addDaySpend
  repeat' split
  all_goals rfl

@[simp] theorem descrambling_judgeExpiries : s.judgeExpiries.descrambling = s.descrambling := rfl

/-! ## The judgement of a verdict before the engine stage (R81, R82) -/

@[simp] theorem descrambling_access (n : Nat) (r : Service) : (s.access n r).1.descrambling = s.descrambling := by
  unfold access
  repeat' split
  all_goals first | rfl | exact descrambling_askMeter ..

@[simp] theorem descrambling_judge (o : Screen) : (s.judge o).1.descrambling = s.descrambling := by
  unfold judge
  repeat' split
  all_goals first | rfl | exact descrambling_access ..

@[simp] theorem descrambling_letGo (outs : List Screen) : (s.letGo outs).descrambling = s.descrambling := by
  unfold letGo
  induction outs generalizing s with
  | nil => rfl
  | cons o os ih =>
    rw [List.foldl_cons, ih]
    split <;> rfl

/-! ## Unlocks and the filter set -/

@[simp] theorem descrambling_dropUnlock (which : Option Screen) :
    (s.dropUnlock which).descrambling = s.descrambling := rfl

@[simp] theorem descrambling_dropUnlocks : s.dropUnlocks.descrambling = s.descrambling := rfl

@[simp] theorem descrambling_dropAll (ws : List (Option Screen)) :
    (ws.foldl (fun s w => s.dropUnlock w) s).descrambling = s.descrambling := by
  induction ws generalizing s with
  | nil => rfl
  | cons w ws ih => exact ih _

@[simp] theorem descrambling_dropScreens (os : List Screen) :
    (os.foldl (fun s o => s.dropUnlock (some o)) s).descrambling = s.descrambling := by
  induction os generalizing s with
  | nil => rfl
  | cons o os ih => exact ih _

@[simp] theorem descrambling_refilter : s.refilter.descrambling = s.descrambling := rfl

@[simp] theorem descrambling_onProgramme (n : Nat) (f : Programme → Programme) :
    (s.onProgramme n f).descrambling = s.descrambling := rfl

/-! ## The Set Port -/

@[simp] theorem descrambling_startSending : s.startSending.descrambling = s.descrambling := by
  unfold startSending
  split <;> rfl

@[simp] theorem descrambling_queueFrame (f : OutFrame) : (s.queueFrame f).descrambling = s.descrambling := by
  simp [queueFrame]

@[simp] theorem descrambling_queueError (bytes : List Byte) : (s.queueError bytes).descrambling = s.descrambling := by
  simp [queueError, descrambling_ite]

@[simp] theorem descrambling_replyWith (st : Status) (fields : List Byte) (resets : Bool) :
    (s.replyWith st fields resets).descrambling = s.descrambling := by
  unfold replyWith
  split <;> simp

@[simp] theorem descrambling_reply (st : Status) (fields : List Byte) :
    (s.reply st fields).descrambling = s.descrambling := descrambling_replyWith ..

@[simp] theorem descrambling_offer (r : Request) : (s.offer r).descrambling = s.descrambling := by
  simp [offer, descrambling_ite]

@[simp] theorem descrambling_judgeFrame (got crc : List Byte) :
    (s.judgeFrame got crc).descrambling = s.descrambling := by
  simp [judgeFrame, descrambling_ite]

@[simp] theorem descrambling_setReceiver (r : Receiver) : (s.setReceiver r).descrambling = s.descrambling := rfl

@[simp] theorem descrambling_dropFrame : s.dropFrame.descrambling = s.descrambling := rfl

@[simp] theorem descrambling_takeChar (c : Byte) : (s.takeChar c).descrambling = s.descrambling := by
  unfold takeChar
  split <;> simp [descrambling_ite]

@[simp] theorem descrambling_arriveChar (c : Byte) : (s.arriveChar c).descrambling = s.descrambling := by
  simp [arriveChar, descrambling_ite]

@[simp] theorem descrambling_arriveChars (cs : List Byte) :
    (cs.foldl (fun s c => s.arriveChar c) s).descrambling = s.descrambling := by
  induction cs generalizing s with
  | nil => rfl
  | cons c cs ih => rw [List.foldl_cons, ih, descrambling_arriveChar]

@[simp] theorem descrambling_executing : s.executing.descrambling = s.descrambling := rfl

@[simp] theorem descrambling_markGuestWaits : s.markGuestWaits.descrambling = s.descrambling := by
  unfold markGuestWaits
  repeat' split
  all_goals rfl

/-! ## The Rating Lock -/

@[simp] theorem descrambling_beginLockWrite (w : LockWrite) :
    (s.beginLockWrite w).descrambling = s.descrambling := rfl

@[simp] theorem descrambling_beginRoomWrite (w : RoomWrite) :
    (s.beginRoomWrite w).descrambling = s.descrambling := rfl

@[simp] theorem descrambling_lockFreed : s.lockFreed.descrambling = s.descrambling := by
  unfold lockFreed
  repeat' split
  all_goals rfl

@[simp] theorem descrambling_endLockWrite : s.endLockWrite.descrambling = s.descrambling := rfl

@[simp] theorem descrambling_durableLock (f) : (s.durableLock f).descrambling = s.descrambling := rfl

@[simp] theorem descrambling_lockoutEnded (before : State) :
    (s.lockoutEnded before).descrambling = s.descrambling := by
  simp [lockoutEnded, descrambling_ite]

@[simp] theorem descrambling_startLockout : s.startLockout.descrambling = s.descrambling := rfl

@[simp] theorem descrambling_replyBadPin (lockout : Bool) : (s.replyBadPin lockout).descrambling = s.descrambling :=
  descrambling_reply ..

@[simp] theorem descrambling_takeLockMessage (m : MsgBody) :
    (s.takeLockMessage m).descrambling = s.descrambling := by
  unfold takeLockMessage
  split <;> simp [descrambling_ite]

@[simp] theorem descrambling_takeWaiting (ms : List MsgBody) : (s.takeWaiting ms).descrambling = s.descrambling := by
  induction ms generalizing s with
  | nil => rfl
  | cons m ms ih => simp [takeWaiting, descrambling_ite, ih]

@[simp] theorem descrambling_endLockout : s.endLockout.descrambling = s.descrambling := by
  simp [endLockout, descrambling_ite]

/-! ## The Room Controller, the Charge Journal and the Management Decoder -/

@[simp] theorem descrambling_endRoomWrite : s.endRoomWrite.descrambling = s.descrambling := rfl

@[simp] theorem descrambling_advanceCheckOut : s.advanceCheckOut.descrambling = s.descrambling := by
  simp [advanceCheckOut, descrambling_ite]

@[simp] theorem descrambling_advanceSuspend : s.advanceSuspend.descrambling = s.descrambling := by
  unfold advanceSuspend
  repeat' split
  all_goals simp

@[simp] theorem descrambling_beginNewFolio (c : CheckIn) : (s.beginNewFolio c).descrambling = s.descrambling := rfl

@[simp] theorem descrambling_takeNextFolio (next : Option CheckIn) :
    (s.takeNextFolio next).descrambling = s.descrambling := by
  unfold takeNextFolio
  split <;> rfl

@[simp] theorem descrambling_updateFolio (limit : Nat) (pin : Option Nat) :
    (s.updateFolio limit pin).descrambling = s.descrambling := by
  simp [updateFolio, descrambling_ite]

@[simp] theorem descrambling_takeSetLimit (folio limit : Nat) :
    (s.takeSetLimit folio limit).descrambling = s.descrambling := by
  simp [takeSetLimit, descrambling_ite]

@[simp] theorem descrambling_openWindow (minutes : Nat) : (s.openWindow minutes).descrambling = s.descrambling := rfl

@[simp] theorem descrambling_closeWindow : s.closeWindow.descrambling = s.descrambling := rfl

@[simp] theorem descrambling_beginRelease (upTo : Nat) : (s.beginRelease upTo).descrambling = s.descrambling := by
  simp [beginRelease, descrambling_ite]

@[simp] theorem descrambling_takeRelease (upTo : Nat) : (s.takeRelease upTo).descrambling = s.descrambling := by
  simp [takeRelease, descrambling_ite]

@[simp] theorem descrambling_countDrop : s.countDrop.descrambling = s.descrambling := rfl

@[simp] theorem descrambling_keyDropped : s.keyDropped.descrambling = s.descrambling := rfl

@[simp] theorem descrambling_recordIssue (m : Message) : (s.recordIssue m).descrambling = s.descrambling := by
  simp [recordIssue, descrambling_ite]

@[simp] theorem descrambling_judgeHanded (ps : List (List Byte)) :
    (s.judgeHanded ps).descrambling = s.descrambling := by
  induction ps generalizing s with
  | nil => rfl
  | cons p ps ih =>
    unfold judgeHanded
    split <;> simp [ih]

@[simp] theorem descrambling_handOver (p : List Byte) : (s.handOver p).descrambling = s.descrambling := by
  unfold handOver
  split <;> simp

/-! ## What the property sets -/

@[simp] theorem descrambling_takeTier (tier : Nat) (granted : Bool) :
    (s.takeTier tier granted).descrambling = s.descrambling := by
  unfold takeTier
  split <;> simp [descrambling_ite]

@[simp] theorem descrambling_takePolicy (p : Policy) : (s.takePolicy p).descrambling = s.descrambling := by
  simp [takePolicy, descrambling_ite]

@[simp] theorem descrambling_takeRates (r : Rates) : (s.takeRates r).descrambling = s.descrambling := by
  simp [takeRates, descrambling_ite]

@[simp] theorem descrambling_nextPolicy : s.nextPolicy.descrambling = s.descrambling := by
  unfold nextPolicy
  split <;> simp

@[simp] theorem descrambling_nextRates : s.nextRates.descrambling = s.descrambling := by
  unfold nextRates
  split <;> simp

@[simp] theorem descrambling_nextTiers : s.nextTiers.descrambling = s.descrambling := rfl

/-! ## Sales, sessions and counts -/

@[simp] theorem descrambling_beginBuy (p : Purchase) : (s.beginBuy p).descrambling = s.descrambling := rfl

@[simp] theorem descrambling_cancelOwned (p : Purchase) : (s.cancelOwned p).descrambling = s.descrambling := by
  unfold cancelOwned
  split <;> simp [descrambling_ite, beginCancel, promiseRecord]

@[simp] theorem descrambling_sell (p : Purchase) : (s.sell p).descrambling = s.descrambling := by
  simp [sell, descrambling_ite]

@[simp] theorem descrambling_refund (p : Purchase) (stamp : PTime) :
    (s.refund p stamp).descrambling = s.descrambling := by
  simp [refund, descrambling_ite]

@[simp] theorem descrambling_nothingPending : s.nothingPending.descrambling = s.descrambling := rfl

@[simp] theorem descrambling_endSession (x : Session) (stamp : PTime) (charged : Bool) :
    (s.endSession x stamp charged).descrambling = s.descrambling := by
  simp [endSession, descrambling_ite]

@[simp] theorem descrambling_nextMeterWrite : s.nextMeterWrite.descrambling = s.descrambling := by
  simp [nextMeterWrite, descrambling_ite]

@[simp] theorem descrambling_nextPresentation : s.nextPresentation.descrambling = s.descrambling := by
  simp [nextPresentation, descrambling_ite]

@[simp] theorem descrambling_dropReleased (numbers : List Nat) (cs : List Count) :
    (s.dropReleased numbers cs).descrambling = s.descrambling := rfl

@[simp] theorem descrambling_tickTime : s.tickTime.descrambling = s.descrambling := by
  unfold tickTime
  split <;> rfl

@[simp] theorem descrambling_countViewing : s.countViewing.descrambling = s.descrambling := by
  unfold countViewing
  dsimp only
  split <;> simp

@[simp] theorem descrambling_countMetered : s.countMetered.descrambling = s.descrambling := by
  unfold countMetered
  dsimp only
  split <;> simp

@[simp] theorem descrambling_tick : s.tick.descrambling = s.descrambling := by
  simp [tick, descrambling_ite]

@[simp] theorem descrambling_accrue (x : Session) (net : Nat) : (s.accrue x net).descrambling = s.descrambling := by
  simp [accrue]

@[simp] theorem descrambling_endAccrual (n : Nat) : (s.endAccrual n).descrambling = s.descrambling := rfl

@[simp] theorem descrambling_emptyDaySpend : s.emptyDaySpend.descrambling = s.descrambling := by
  simp [emptyDaySpend, descrambling_ite]

@[simp] theorem descrambling_nextBoundary : s.nextBoundary.descrambling = s.descrambling := rfl

@[simp] theorem descrambling_deliver (n : Nat) (payload : List Byte) :
    (s.deliver n payload).descrambling = s.descrambling := rfl

@[simp] theorem descrambling_judgeArmed (old : Settings) : (s.judgeArmed old).descrambling = s.descrambling := by
  simp [judgeArmed, descrambling_ite]

@[simp] theorem descrambling_closeFound : s.closeFound.descrambling = s.descrambling := descrambling_closeOldest ..

@[simp] theorem descrambling_setLimit (limit : Nat) : (s.setLimit limit).descrambling = s.descrambling := rfl

@[simp] theorem descrambling_replacePin (pin : Option Nat) : (s.replacePin pin).descrambling = s.descrambling := by
  unfold replacePin
  split <;> rfl

@[simp] theorem descrambling_clearFolio (settling : Option Nat) :
    (s.clearFolio settling).descrambling = s.descrambling := rfl

end

end Sys2Proof.Machine.State
end

section
/-! PROOF. Runs of verdicts, and the operations the commands share, keep the laws of the engines and of the cell
keys. -/

namespace Sys2Proof.Machine.EnginesKept

variable {a s : State}

/-! ## Runs of verdicts (R68 to R73, R81 to R85) -/

theorem unwait {o : Screen} (h : EnginesKept a s) : EnginesKept a (s.onWait (unwait o)) :=
  h.trans ⟨bindingLaw_unwait o, id⟩

theorem releaseIfUnheld {e : EngineId} (h : EnginesKept a s) : EnginesKept a (s.releaseIfUnheld e).1 := by
  unfold State.releaseIfUnheld
  split
  · exact h.promoted (bindingLaw_freeEngine e) (onlyVerdicts_freeEngine e s).keys
  · exact h

theorem endClaim {o : Screen} (h : EnginesKept a s) : EnginesKept a (s.endClaim o).1 := by
  unfold State.endClaim
  split
  · exact h.unwait
  · exact .releaseIfUnheld <| .frame (State.descrambling_onOutput ..) h.unwait

theorem claim {o : Screen} {n : Nat} (h : EnginesKept a s) : EnginesKept a (s.claim o n).1 := by
  have ended : EnginesKept a (s.endOtherClaim o n).1 := by
    unfold State.endOtherClaim
    split
    · exact h
    · exact h.endClaim
  exact ended.promoted (bindingLaw_obtainEngine o n) (onlyVerdicts_obtainEngine o n _).keys

theorem verdict {o : Screen} (h : EnginesKept a s) : EnginesKept a (s.verdict o).1 := by
  have judged : EnginesKept a (s.judge o).1 := .frame (State.descrambling_judge ..) h
  unfold State.verdict
  split <;> rename_i heq <;> rw [heq] at judged
  case h_4 => exact .frame (State.descrambling_onOutput ..) judged.claim
  all_goals exact .frame (State.descrambling_onOutput ..) judged.endClaim

theorem refit {e : EngineId} {n : Nat} (h : EnginesKept a s) : EnginesKept a (s.refit e n) := by
  unfold State.refit
  split
  case isTrue hfree =>
    simp only [Bool.and_eq_true, Option.isNone_iff_eq_none] at hfree
    obtain ⟨⟨⟨_, hbound⟩, hunbound⟩, _⟩ := hfree
    obtain ⟨d, hd⟩ := Option.isSome_iff_exists.1 hunbound
    have hnone : (s.engine d).bound = none := by simpa using engineWhere_some hd
    exact h.promoted (fun hs => bindingLaw_rebind e hs hnone hbound) (onlyVerdicts_rebind e n s).keys
  case isFalse => exact h

theorem take {x : Turn} (h : EnginesKept a s) : EnginesKept a (s.take x).1 := by
  cases x with
  | release e => exact h.releaseIfUnheld
  | run o left =>
    refine .verdict ?_
    unfold State.followOn
    split
    · exact h.refit
    · exact h

theorem takeTurns {fuel : Nat} {turns : List Turn} (h : EnginesKept a s) :
    EnginesKept a (s.takeTurns fuel turns) := by
  induction fuel generalizing turns s with
  | zero => exact h
  | succ n ih =>
    cases turns with
    | nil => exact h
    | cons x xs => exact ih h.take

theorem rerun {outs : List Screen} (h : EnginesKept a s) : EnginesKept a (s.rerun outs) :=
  .takeTurns <| .frame (by simp) h

theorem rerunAll (h : EnginesKept a s) : EnginesKept a s.rerunAll := h.rerun

theorem judgeLapses {concerned : Screen → Bool} (h : EnginesKept a s) : EnginesKept a (s.judgeLapses concerned) :=
  .ite h <| .rerunAll <| .frame (by simp) h

theorem applyRoute {o : Screen} {route : Option Nat} (h : EnginesKept a s) : EnginesKept a (s.applyRoute o route) :=
  .rerun <| .frame (by simp) h

theorem endHold (h : EnginesKept a s) : EnginesKept a s.endHold :=
  .rerun <| .frame (by simp) h

theorem moneyChanged {before : State} (h : EnginesKept a s) : EnginesKept a (s.moneyChanged before) :=
  .ite h h.rerun

/-! ## The engines (R63, R73 to R77) -/

theorem setEngine_same {e : EngineId} {x : Engine} (hx : (s.engine e).Same x) (h : EnginesKept a s) :
    EnginesKept a (s.setEngine e x) := by
  refine h.same rfl (fun d => ?_) rfl rfl
  by_cases hde : d = e
  · subst hde
    simpa [State.setEngine, State.engine] using hx
  · simpa [State.setEngine, State.engine, Three.get_set_other _ _ hde] using ⟨rfl, rfl⟩

theorem mapEngines {f : Engine → Engine} (hf : ∀ x : Engine, x.Same (f x)) (h : EnginesKept a s) :
    EnginesKept a (s.onPool fun p => { p with engines := p.engines.map f }) :=
  h.same rfl (fun e => by simpa [State.engine] using hf (s.engine e)) rfl rfl

theorem powerEngines (h : EnginesKept a s) : EnginesKept a s.powerEngines :=
  .ite (.mapEngines (fun x => by cases x <;> exact ⟨rfl, rfl⟩) h) h

theorem judgePower {old : Settings} (h : EnginesKept a s) : EnginesKept a (s.judgePower old) :=
  .ite h <| .powerEngines <| .mapEngines (fun x => by cases x <;> exact ⟨rfl, rfl⟩) h

/-- Every engine becomes unbound, and nothing waits any more. -/
theorem unbindAll {es : Three Engine} (hes : ∀ e, (es.get e).bound = none) (h : EnginesKept a s) :
    EnginesKept a ((s.onPool fun _ => ⟨es, []⟩).onOutputs .unhold).promoteKeys :=
  h.promoted (fun _ => (bindingLaw_iff _).2 (.unbound hes)) (.refl _)

theorem enginesOff (h : EnginesKept a s) : EnginesKept a s.enginesOff :=
  .unbindAll (fun e => by fin_cases e <;> rfl) h

theorem restartEngines (h : EnginesKept a s) : EnginesKept a s.restartEngines := by
  refine .unbindAll (fun e => ?_) h
  rw [Three.get_map]
  unfold Engine.restarted
  split
  case h_4 => cases hx : s.pool.engines.get e <;> simp_all [Engine.bound]
  all_goals rfl

theorem endWarmUp {e : EngineId} (h : EnginesKept a s) : EnginesKept a (s.endWarmUp e).1.promoteKeys := by
  refine h.promoted (bindingLaw_endWarmUp e) ?_
  unfold State.endWarmUp
  split
  case h_2 =>
    split
    case h_1 => exact .refl _
    case h_2 w ws _ => exact (onlyVerdicts_holdAll e w.outputs ((s.onWait fun _ => ws).activate e w.service)).keys
  all_goals exact .refl _

theorem cellDecoded {e : EngineId} {n : Nat} {parity : Option Parity} (h : EnginesKept a s) :
    EnginesKept a (s.cellDecoded e n parity) := by
  unfold State.cellDecoded
  split
  case h_1 m last noKeyAt he =>
    have restarted {x : Engine} (hx : x.bound = some m) : EnginesKept a (s.setEngine e x).promoteKeys :=
      h.promoted (bindingLaw_setEngine_same (by rw [he, hx]; rfl)) (.refl _)
    exact .ite (.rerun (restarted rfl)) (restarted rfl)
  case h_2 => exact h

/-! ## The keys (R53, R56, R59, R60) -/

/-- A change of one group that puts no pending key where the law has none. -/
theorem onKeyGroup {g : Nat} {f : KeyGroup → KeyGroup}
    (hf : ∀ p, ((s.keyGroup g).slot p).Lawful (s.parityInUse g p) →
      ((f (s.keyGroup g)).slot p).Lawful (s.parityInUse g p)) (h : EnginesKept a s) :
    EnginesKept a (s.onKeyGroup g f) := by
  refine h.trans ⟨id, fun hs => ?_⟩
  rw [keyLaw_iff] at hs ⊢
  intro g' p
  show KeySlot.Lawful (s.parityInUse g' p) (((s.onKeyGroup g f).keyGroup g').slot p)
  by_cases hg : g' = g ∧ g < s.keys.length
  · obtain ⟨rfl, hlt⟩ := hg
    have hgroup : (s.onKeyGroup g' f).keyGroup g' = f (s.keyGroup g') := by
      simp [State.keyGroup, State.onKeyGroup, hlt]
    rw [hgroup]
    exact hf p (hs g' p)
  · have hgroup : (s.onKeyGroup g f).keyGroup g' = s.keyGroup g' := by
      simp only [State.keyGroup, State.onKeyGroup, State.onKeys_keys, List.getD_eq_getElem?_getD, List.getElem?_set]
      grind
    rw [hgroup]
    exact hs g' p

theorem takeAccessOp {g : Nat} {op : AccessOp} (h : EnginesKept a s) : EnginesKept a (s.takeAccessOp g op) :=
  .ite (.onKeyGroup (fun p hp => by cases p <;> exact hp) h)
    (.ite h (.onKeyGroup (fun p hp => by cases p <;> exact hp) h))

theorem nextAccessOp {g : Nat} (h : EnginesKept a s) : EnginesKept a (s.nextAccessOp g) := by
  unfold State.nextAccessOp
  split
  · exact .takeAccessOp <| .onKeyGroup (fun p hp => by cases p <;> exact hp) h
  · exact .onKeyGroup (fun p hp => by cases p <;> exact hp) h

theorem erased {g : Nat} (h : EnginesKept a s) : EnginesKept a (s.onKeyGroup g .erased) :=
  .onKeyGroup (fun p _ hp => by cases p <;> cases hp) h

theorem deliverKey {g : Nat} {p : Parity} {key : CellKey} (h : EnginesKept a s) :
    EnginesKept a (s.deliverKey g p key) := by
  refine .onKeyGroup (fun q hq => ?_) h
  have hslot (k : KeyGroup) (v : KeySlot) : (k.setSlot v p).slot q = if q = p then v else k.slot q := by
    cases p <;> cases q <;> rfl
  rw [hslot]
  split
  case isTrue hqp =>
    subst hqp
    exact KeySlot.lawful_deliver key hq
  case isFalse => exact hq

/-- Every slot is emptied. -/
theorem emptyKeys {n : Nat} (h : EnginesKept a s) : EnginesKept a (s.onKeys fun _ => List.replicate n .empty) :=
  h.trans ⟨id, fun _ => keyLaw_of_empty rfl⟩

/-- The kept operations of every group are discarded. -/
theorem discardNext (h : EnginesKept a s) :
    EnginesKept a (s.onKeys (·.map fun k => { k with next := none })) := by
  refine h.trans ⟨id, fun hs => ?_⟩
  rw [keyLaw_iff] at hs ⊢
  intro g p
  have hgroup : (s.onKeys (·.map fun k => { k with next := none })).keyGroup g =
      { s.keyGroup g with next := none } :=
    List.getD_map (d := KeyGroup.empty) ..
  rw [hgroup]
  cases p <;> exact hs g _

end Sys2Proof.Machine.EnginesKept
end

section
/-! PROOF. What the commands are made of keeps the laws of the engines and of the cell keys: one lemma per
operation. -/

namespace Sys2Proof.Machine.EnginesKept

open State

variable {a s : State}

/-! ## The Room Controller and the Rating Lock -/

theorem grant {room : Bool} {screen : Nat} (h : EnginesKept a s) : EnginesKept a (s.grant room screen) := by
  unfold State.grant
  refine .ite (.rerunAll <| .frame (by simp) h) ?_
  split
  · exact .rerunAll <| .frame (by simp) h
  · exact h

theorem beginCheckOut {next : Option CheckIn} (h : EnginesKept a s) : EnginesKept a (s.beginCheckOut next) :=
  .frame (descrambling_advanceCheckOut _) <| .rerunAll <| .frame (by simp) h

theorem takeCheckIn {c : CheckIn} (h : EnginesKept a s) : EnginesKept a (s.takeCheckIn c) :=
  .ite (.frame (by simp) h) (.ite (.ite (.frame (by simp) h) h.beginCheckOut) (.frame (by simp) h))

theorem takeCheckOut {folio : Nat} (h : EnginesKept a s) : EnginesKept a (s.takeCheckOut folio) :=
  .ite h.beginCheckOut (.frame (by simp) h)

theorem takeRoomMessage {m : MsgBody} (h : EnginesKept a s) : EnginesKept a (s.takeRoomMessage m) := by
  unfold State.takeRoomMessage
  split
  case h_1 => exact h.takeCheckIn
  case h_2 => exact h.takeCheckOut
  all_goals exact .frame (by simp [descrambling_ite]) h

theorem takeHeld {ms : List MsgBody} (h : EnginesKept a s) : EnginesKept a (s.takeHeld ms) := by
  induction ms generalizing s with
  | nil => exact .frame (by simp [State.takeHeld]) h
  | cons m ms ih => exact .ite (.frame (by simp) h) (ih h.takeRoomMessage)

/-! ## The receipt of a message -/

theorem dispatch {k : MsgKind} {f : Message → State → State}
    (hf : ∀ m s, EnginesKept s (f m s)) (h : EnginesKept a s) : EnginesKept a (s.dispatch k f) := by
  unfold State.dispatch
  split
  · exact .ite (.frame (descrambling_judgeHanded ..) <| .trans (.frame (by simp) h) (hf _ _)) h
  · exact h

theorem receive {f : MsgBody → State → State} (hf : ∀ m s, EnginesKept s (f m s)) (m : Message) (s : State) :
    EnginesKept s (s.receive f m) :=
  .trans (.framed (by simp)) (hf _ _)

theorem receiveRoom (m : Message) (s : State) : EnginesKept s (s.receiveRoom m) :=
  .ite (.takeRoomMessage (.framed (by simp))) (.ite (.framed (by simp)) (.framed (by simp)))

theorem receiveLock (m : Message) (s : State) : EnginesKept s (s.receiveLock m) :=
  .ite (.framed (by simp)) (.ite (.framed (by simp)) (.framed (by simp)))

/-! ## The lineup, the catalogue and property time -/

/-- A change of the lineup, behind which the pending keys are promoted (R55, R57). -/
theorem setLineup {l : List Service} (h : EnginesKept a s) : EnginesKept a (s.setLineup l).promoteKeys :=
  h.promoted id (.refl _)

theorem addService (raw : RawService) (h : EnginesKept a s) : EnginesKept a (s.addService raw) := by
  unfold State.addService
  split
  · exact .ite h (.ite (.rerun <| .judgeLapses h.setLineup) h)
  · exact h

theorem emptyLineup (h : EnginesKept a s) : EnginesKept a s.emptyLineup :=
  .rerunAll <| .judgeLapses h.setLineup

theorem takeLineup {version index count : Nat} {records : List RawService} (h : EnginesKept a s) :
    EnginesKept a (s.takeLineup version index count records) :=
  have added {s : State} (h : EnginesKept a s) : EnginesKept a (records.foldl (fun s r => s.addService r) s) :=
    .foldl (fun s r => (refl s).addService r) records h
  .ite (added <| .frame (descrambling_onDecoder ..) h.emptyLineup)
    (.ite h (.ite (.frame (by simp) h) (added <| .frame (descrambling_onDecoder ..) h)))

theorem setCatalogue {l : List Title} (h : EnginesKept a s) : EnginesKept a (s.setCatalogue l) :=
  .rerunAll <| .judgeLapses <| .frame (by simp) h

theorem addTitle (raw : RawTitle) (h : EnginesKept a s) : EnginesKept a (s.addTitle raw) := by
  unfold State.addTitle
  split
  · split
    · exact h.setCatalogue
    · exact h
  · exact h

theorem takeCatalogue {version index count : Nat} {records : List RawTitle} (h : EnginesKept a s) :
    EnginesKept a (s.takeCatalogue version index count records) :=
  have added {s : State} (h : EnginesKept a s) : EnginesKept a (records.foldl (fun s r => s.addTitle r) s) :=
    .foldl (fun s r => (refl s).addTitle r) records h
  .ite (added <| .frame (descrambling_onDecoder ..) h.setCatalogue)
    (.ite h (.ite (.frame (by simp) h) (added <| .frame (descrambling_onDecoder ..) h)))

theorem takeTime {new : PTime} (h : EnginesKept a s) : EnginesKept a (s.takeTime new) := by
  unfold State.takeTime
  split
  · exact .frame (descrambling_judgeExpiries _) <| .rerunAll <| .frame (by simp) h
  · exact .ite (.frame (by simp [State.moveTime]) h) (.frame (by simp [State.moveTime]) h)

/-! ## The bodies of messages -/

theorem takeGrant (m : MsgBody) (s : State) : EnginesKept s (s.takeGrant m) := by
  unfold State.takeGrant
  split <;> exact .framed (by simp)

theorem takeRevocation (m : MsgBody) (s : State) : EnginesKept s (s.takeRevocation m) := by
  unfold State.takeRevocation
  split <;> exact .framed (by simp)

theorem takeLineupBody (m : MsgBody) (s : State) : EnginesKept s (s.takeLineupBody m) := by
  unfold State.takeLineupBody
  split
  · exact .takeLineup (.refl s)
  · exact .refl s

theorem takeCatalogueBody (m : MsgBody) (s : State) : EnginesKept s (s.takeCatalogueBody m) := by
  unfold State.takeCatalogueBody
  split
  · exact .takeCatalogue (.refl s)
  · exact .refl s

theorem takePolicyBody (m : MsgBody) (s : State) : EnginesKept s (s.takePolicyBody m) := by
  unfold State.takePolicyBody
  split <;> exact .framed (by simp)

theorem takeRatesBody (m : MsgBody) (s : State) : EnginesKept s (s.takeRatesBody m) := by
  unfold State.takeRatesBody
  split <;> exact .framed (by simp)

theorem takeGroupKey (m : MsgBody) (s : State) : EnginesKept s (s.takeGroupKey m) := by
  unfold State.takeGroupKey
  split
  · split
    · exact .ite (.takeAccessOp (.refl s)) (.framed (by simp))
    · exact .refl s
  · exact .refl s

theorem takeRevokeGroup (m : MsgBody) (s : State) : EnginesKept s (s.takeRevokeGroup m) := by
  unfold State.takeRevokeGroup
  split
  · exact .takeAccessOp (.refl s)
  · exact .refl s

theorem takeKeyDelivery (m : MsgBody) (s : State) : EnginesKept s (s.takeKeyDelivery m) := by
  unfold State.takeKeyDelivery
  split
  · split
    · exact .ite (.deliverKey (.refl s)) (.framed (by simp))
    · exact .refl s
  · exact .refl s

theorem takeReleaseBody (m : MsgBody) (s : State) : EnginesKept s (s.takeReleaseBody m) := by
  unfold State.takeReleaseBody
  split <;> exact .framed (by simp)

theorem takeTimeBody (m : MsgBody) (s : State) : EnginesKept s (s.takeTimeBody m) := by
  unfold State.takeTimeBody
  split
  · exact .takeTime (.refl s)
  · exact .refl s

theorem takeFullReset (m : MsgBody) (s : State) : EnginesKept s (s.takeFullReset m) := by
  unfold State.takeFullReset
  split <;> exact .framed (by simp [descrambling_ite])

/-! ## Distribution cells -/

theorem passMedia {n count : Nat} {payload : List Byte} {sc : Scramble} (h : EnginesKept a s) :
    EnginesKept a (s.passMedia n count payload sc) := by
  unfold State.passMedia
  split
  · exact .frame (descrambling_deliver ..) h.cellDecoded
  · exact .frame (by simp) h
  · split
    · exact .frame (descrambling_deliver ..) h.cellDecoded
    · exact h
  · exact h

theorem arriveMedia {cell : List Byte} (h : EnginesKept a s) : EnginesKept a (s.arriveMedia cell) := by
  unfold State.arriveMedia
  split
  · have seen := h.frame (descrambling_onProgramme s (cellService cell) (.seeMedia s.now (cellCount cell)))
    exact .ite (.passMedia <| .ite seen.rerun seen) h
  · exact h

theorem programmeChanged {n : Nat} {before : State} (h : EnginesKept a s) :
    EnginesKept a (s.programmeChanged n before) :=
  h.judgeLapses.rerun

theorem arriveDescriptor {cell : List Byte} (h : EnginesKept a s) : EnginesKept a (s.arriveDescriptor cell) :=
  .ite (.ite (.programmeChanged <| .frame (by simp) h) (.frame (by simp) h)) h

/-! ## Requests -/

theorem request {kind : Nat} {group : Group} {f : List Byte → State → State} (hf : ∀ b, EnginesKept s (f b s)) :
    EnginesKept s (s.request kind group f) := by
  unfold State.request State.beginRequest
  split
  · exact .ite (.ite (.framed (by simp)) (.ite (.framed (by simp)) (hf _))) (.refl s)
  · exact .refl s

theorem tuneTo {o : Screen} {n : Nat} (h : EnginesKept a s) : EnginesKept a (s.tuneTo o n) :=
  .ite (.frame (by simp) h) (.ite h h.applyRoute)

theorem switchOff {o : Screen} (h : EnginesKept a s) : EnginesKept a (s.switchOff o) :=
  .ite (.frame (by simp) h) (.rerunAll <| .frame (descrambling_dropUnlock ..) <| .ite h.applyRoute h)

theorem tryUnlock {room : Bool} {screen pin : Nat} (h : EnginesKept a s) :
    EnginesKept a (s.tryUnlock room screen pin) :=
  .ite (.frame (by simp [State.replyLockedOut]) h) <| .ite (.frame (by simp) h) <|
    .ite (.frame (by simp [State.beginFailure]) h) <|
    .ite (.frame (descrambling_reply ..) h.grant) (.frame (by simp) h)

theorem trySetPin {old : Option Nat} {new : Nat} (h : EnginesKept a s) : EnginesKept a (s.trySetPin old new) :=
  .frame (by simp [State.trySetPin, State.replyLockedOut, State.beginFailure, descrambling_ite]) h

theorem emptyProgrammes (h : EnginesKept a s) : EnginesKept a s.emptyProgrammes :=
  .rerun <| .judgeLapses <| .frame (by simp) h

theorem restartOutputs (h : EnginesKept a s) : EnginesKept a s.restartOutputs :=
  .rerun <| .frame (by simp) h

theorem beginProvision {p : Provision} (h : EnginesKept a s) : EnginesKept a (s.beginProvision p) :=
  .frame (s := if p.newRoom then s.onKeys (·.map fun k => { k with next := none }) else s) rfl
    (.ite h.discardNext h)

/-! ## Power, start-up and the line (R178) -/

/-- A start-up begins with every engine OFF and no key held. -/
theorem startedWith {r : Retained} {boot : Boot} {fastBaud maintenance : Bool} :
    EnginesKept a (startedWith r boot fastBaud maintenance s) where
  binding _ := (bindingLaw_iff _).2 (.unbound fun e => by fin_cases e <;> rfl)
  keys _ := keyLaw_of_empty (n := 16) rfl

theorem startUp {boot : Boot} {fastBaud maintenance : Bool} : EnginesKept a (s.startUp boot fastBaud maintenance) :=
  .frame (descrambling_closeFound _) <| .ite startedWith (.frame (descrambling_raise ..) startedWith)

theorem fullReset {boot : Boot} : EnginesKept a (s.fullReset boot) := startUp

theorem powerUp {fastBaud maintenance : Bool} {boot : Boot} : EnginesKept a (s.powerUp fastBaud maintenance boot) :=
  .frame (descrambling_onRoom ..) startUp

theorem powerDown : EnginesKept a s.powerDown :=
  .frame (s := Machine.startedWith s.store ⟨true, true, true, true, true⟩ false false s) rfl startedWith

theorem finishStartUp (h : EnginesKept a s) : EnginesKept a s.finishStartUp := by
  unfold State.finishStartUp
  extract_lets s₁ s₂ s₃ s₄ s₅
  have powered : EnginesKept a s₅.powerEngines := .powerEngines <| .frame (s := s) rfl h
  exact .frame (s := s₅.powerEngines) rfl powered

theorem breakLine {boot : Boot} (h : EnginesKept a s) : EnginesKept a (s.breakLine boot) :=
  .ite fullReset (.frame (by simp [State.breakGap, descrambling_ite]) h)

theorem replySent {boot : Boot} (h : EnginesKept a s) : EnginesKept a (s.replySent boot) := by
  unfold State.replySent
  split
  · exact .ite fullReset (.frame (by simp) h)
  · exact h

/-! ## Completions of durable writes -/

theorem openFolio {folio limit : Nat} {pin : Option Nat} {ceiling : Nat} (h : EnginesKept a s) :
    EnginesKept a (s.openFolio folio limit pin ceiling) :=
  .frame (descrambling_lockFreed _) <| .rerunAll <| .judgeLapses <| .frame (by simp) h

theorem setSuspended {on : Bool} (h : EnginesKept a s) : EnginesKept a (s.setSuspended on) :=
  .frame (s := s) rfl h

theorem closeForSuspension (h : EnginesKept a s) : EnginesKept a s.closeForSuspension :=
  .frame (by simp [State.closeForSuspension]) h

theorem completeCheckOut {settling : Option Nat} (h : EnginesKept a s) :
    EnginesKept a (s.completeCheckOut settling) := by
  have cleared : EnginesKept a (((s.endRoomWrite.clearFolio settling).dropUnlocks.onRoom fun r =>
      { r with checkOut := none }).raise .property).rerunAll := .rerunAll <| .frame (by simp) h
  exact cleared.frame (by simp [State.completeCheckOut])

theorem enterNewRoom {p : Provision} (h : EnginesKept a s) : EnginesKept a (s.enterNewRoom p) :=
  .rerunAll <| .frame (descrambling_dropUnlocks _) <| .frame (descrambling_onBilling _ _ fun _ => rfl) <|
    .emptyKeys <| .frame (by simp) h

theorem afterClose {n : Nat} (h : EnginesKept a s) : EnginesKept a (s.afterClose n) := by
  have told : EnginesKept a ((s.turnsAdvance.rerun (s.routedOrSlated n)).onBilling fun b =>
      { b with suspendCloses := b.suspendCloses.filter (· != n) }) :=
    .frame (descrambling_onBilling _ _ fun _ => rfl) <| .rerun <| .frame (by simp) h
  exact .ite (told.frame (by simp)) (told.frame (by simp))

theorem judgeSettling (h : EnginesKept a s) : EnginesKept a s.judgeSettling :=
  .ite (.ite (.rerunAll <| .frame (by simp) h) (.frame (by simp) h)) h

/-! ## Clocks and deadlines -/

theorem expire {p : Purchase} (h : EnginesKept a s) : EnginesKept a (s.expire p) :=
  .rerunAll <| .frame (by simp) h

theorem judgeBlock {x : Session} {terms : MeterTerms} (h : EnginesKept a s) :
    EnginesKept a (s.judgeBlock x terms) := by
  refine .ite ?_ (.rerun <| .frame (by simp) h)
  split
  · exact .ite (.frame (by simp) h) (.frame (by simp) h)
  · exact .frame (by simp) h

theorem judgeSessions (h : EnginesKept a s) : EnginesKept a s.judgeSessions := by
  have followed : EnginesKept a (s.onCur fun r =>
      { r with meter := r.meter.map fun x => x.follow s.now (s.showsMetered x.service) }) :=
    .frame (descrambling_onCur ..) h
  have written := followed.frame (descrambling_meterChanged _)
  exact .ite (.ite followed written) (.rerun (.ite followed written))

theorem showAll (h : EnginesKept a s) : EnginesKept a s.showAll :=
  .ite (.judgeSessions <| .judgeLapses <| .frame (by simp) h) (.frame (by simp) h)

theorem probe {o : Screen} {display : Bool} (h : EnginesKept a s) : EnginesKept a (s.probe o display) :=
  .ite (.rerun <| .frame (by simp) h) (.frame (by simp) h)

theorem endUnlock {which : Option Screen} (h : EnginesKept a s) : EnginesKept a (s.endUnlock which) :=
  .ite (.frame (by simp [State.deferUnlock]) h) (.rerunAll <| .frame (by simp) h)

end Sys2Proof.Machine.EnginesKept
end

section
/-! PROOF. Every command, and so every step, keeps the laws of the engines and of the cell keys (O59): one lemma for
each command that runs verdicts or changes the engines, the cell keys or the lineup. -/

namespace Sys2Proof.Machine.EnginesKept

open State

variable {a s s' : State} {t : Nat}

/-! ## What commands are made of -/

/-- A command that occurs keeps the laws where its effect does. -/
theorem occurs {f : State → State} (hs : occurs t f s = .next s') (h : ∀ s, EnginesKept s (f s)) :
    EnginesKept s s' := by
  cases hs
  exact .ite (.refl s) (.trans (.framed (descrambling_atInstant s t)) (h _))

/-- A command that leaves what the laws read. -/
theorem occursFramed {f : State → State} (hs : Machine.occurs t f s = .next s')
    (h : ∀ s, (f s).descrambling = s.descrambling) : EnginesKept s s' :=
  .occurs hs fun s => .framed (h s)

theorem occursMessage {k : MsgKind} {f : Message → State → State}
    (hs : Machine.occurs t (·.dispatch k f) s = .next s') (h : ∀ m s, EnginesKept s (f m s)) : EnginesKept s s' :=
  .occurs hs fun s => .dispatch h (.refl s)

theorem occursRequest {kind : Nat} {group : Group} {f : List Byte → State → State}
    (hs : Machine.occurs t (·.request kind group f) s = .next s') (h : ∀ b s, EnginesKept s (f b s)) :
    EnginesKept s s' :=
  .occurs hs fun s => .request (h · s)

theorem occursRequestFramed {kind : Nat} {group : Group} {f : List Byte → State → State}
    (hs : Machine.occurs t (·.request kind group f) s = .next s')
    (h : ∀ b s, (f b s).descrambling = s.descrambling) : EnginesKept s s' :=
  .occursRequest hs fun b s => .framed (h b s)

/-! ## Power and the set-port line -/

theorem execFrameTransmitted {boot : Boot} (h : execFrameTransmitted t boot s = .next s') : EnginesKept s s' := by
  refine .occurs h fun s => ?_
  split
  · exact .refl s
  · exact .replySent (.refl s)
  · exact .framed (by simp)

theorem execChargePresented (h : execChargePresented t s = .next s') : EnginesKept s s' := by
  refine .occursFramed h fun s => ?_
  split <;> simp [descrambling_ite]

/-! ## Requests -/

theorem execStatus (h : execStatus t s = .next s') : EnginesKept s s' := by
  refine .occursRequestFramed h fun b s => ?_
  split <;> simp

theorem execClearEvents (h : execClearEvents t s = .next s') : EnginesKept s s' := by
  refine .occursRequestFramed h fun b s => ?_
  split <;> simp [State.clearEvents]

theorem execSetEventMask (h : execSetEventMask t s = .next s') : EnginesKept s s' := by
  refine .occursRequestFramed h fun b s => ?_
  split <;> simp

theorem execJournalRead (h : execJournalRead t s = .next s') : EnginesKept s s' := by
  refine .occursRequestFramed h fun b s => ?_
  split <;> simp

theorem execJournalMode (h : execJournalMode t s = .next s') : EnginesKept s s' := by
  refine .occursRequestFramed h fun b s => ?_
  split <;> simp

theorem execTune (h : execTune t s = .next s') : EnginesKept s s' := by
  refine .occursRequest h fun b s => ?_
  split
  · exact .frame (descrambling_reply ..) <| .tuneTo (.refl s)
  · exact .framed (by simp)

theorem execScreenOff (h : execScreenOff t s = .next s') : EnginesKept s s' := by
  refine .occursRequest h fun b s => ?_
  split
  · exact .frame (descrambling_reply ..) <| .switchOff (.refl s)
  · exact .framed (by simp)

theorem execRouteRelease (h : execRouteRelease t s = .next s') : EnginesKept s s' :=
  .occursRequest h fun _ s => .frame (descrambling_reply ..) <| .ite (.endHold (.refl s)) (.refl s)

theorem execRelock (h : execRelock t s = .next s') : EnginesKept s s' := by
  refine .occursRequest h fun b s => ?_
  split
  · exact .frame (descrambling_reply ..) <| .rerunAll <| .framed (by simp)
  · exact .frame (descrambling_reply ..) <| .rerunAll <| .framed (by simp)
  · exact .framed (by simp)

theorem execQuote (h : execQuote t s = .next s') : EnginesKept s s' := by
  refine .occursRequestFramed h fun b s => ?_
  split <;> simp

theorem execBuy (h : execBuy t s = .next s') : EnginesKept s s' := by
  refine .occursRequestFramed h fun b s => ?_
  split <;> simp [descrambling_ite]

theorem execCancel (h : execCancel t s = .next s') : EnginesKept s s' := by
  refine .occursRequestFramed h fun b s => ?_
  rw [descrambling_ite]
  split
  · simp
  · split <;> simp

theorem execUnlock (h : execUnlock t s = .next s') : EnginesKept s s' := by
  refine .occursRequest h fun b s => ?_
  split
  · exact .tryUnlock (.refl s)
  · exact .framed (by simp)

theorem execSetPin (h : execSetPin t s = .next s') : EnginesKept s s' := by
  refine .occursRequest h fun b s => ?_
  split
  · exact .trySetPin (.refl s)
  · exact .framed (by simp)

theorem execRestartStreams (h : execRestartStreams t s = .next s') : EnginesKept s s' :=
  .occursRequest h fun _ s =>
    .frame (descrambling_reply ..) <| .restartOutputs <| .emptyProgrammes <| .restartEngines (.refl s)

theorem execSettingsWrite (h : execSettingsWrite t s = .next s') : EnginesKept s s' := by
  refine .occursRequestFramed h fun b s => ?_
  split <;> simp [descrambling_ite]

theorem execProvision (h : execProvision t s = .next s') : EnginesKept s s' :=
  .occursRequest h fun _ s =>
    .ite (.framed (by simp)) (.ite (.framed (by simp)) (.beginProvision (.refl s)))

theorem execUnknownRequest (h : execUnknownRequest t s = .next s') : EnginesKept s s' := by
  refine .occursFramed h fun s => ?_
  unfold State.beginRequest
  split <;> simp [descrambling_ite]

/-! ## Completions of durable writes -/

theorem execKeptReleaseBegin (h : execKeptReleaseBegin t s = .next s') : EnginesKept s s' := by
  refine .occursFramed h fun s => ?_
  split <;> simp [descrambling_ite]

theorem execNewFolioWriteComplete (h : execNewFolioWriteComplete t s = .next s') : EnginesKept s s' := by
  refine .occurs h fun s => ?_
  split
  · exact .openFolio (.refl s)
  · exact .refl s

theorem execFolioUpdateWriteComplete (h : execFolioUpdateWriteComplete t s = .next s') : EnginesKept s s' := by
  refine .occurs h fun s => ?_
  split
  · exact .frame (descrambling_lockFreed _) <| .moneyChanged <| .framed (by simp)
  · exact .refl s

theorem execLimitWriteComplete (h : execLimitWriteComplete t s = .next s') : EnginesKept s s' := by
  refine .occurs h fun s => ?_
  split
  · exact .moneyChanged <| .framed (by simp)
  · exact .refl s

theorem execSuspendWriteComplete (h : execSuspendWriteComplete t s = .next s') : EnginesKept s s' := by
  refine .occurs h fun s => ?_
  split
  · exact .rerunAll <| .enginesOff <| .closeForSuspension <| .setSuspended (.refl s)
  · exact .refl s

theorem execResumeWriteComplete (h : execResumeWriteComplete t s = .next s') : EnginesKept s s' := by
  refine .occurs h fun s => ?_
  split
  · exact .rerunAll <| .powerEngines <| .setSuspended (.refl s)
  · exact .refl s

theorem execLockdownWriteComplete (h : execLockdownWriteComplete t s = .next s') : EnginesKept s s' := by
  refine .occurs h fun s => ?_
  split
  · exact .rerunAll <| .framed (by simp [descrambling_ite])
  · exact .refl s

theorem execCheckoutClearingComplete (h : execCheckoutClearingComplete t s = .next s') : EnginesKept s s' := by
  refine .occurs h fun s => ?_
  split
  · exact .completeCheckOut (.refl s)
  · exact .refl s

theorem execProvisionWriteComplete (h : execProvisionWriteComplete t s = .next s') : EnginesKept s s' := by
  refine .occurs h fun s => ?_
  split
  case h_1 p _ =>
    have done : EnginesKept s (let ended := s.onPort fun q => { q with provision := none }
        if p.newRoom then ended.enterNewRoom p else ended.durably (.sameRoom p)) :=
      .ite (.enterNewRoom <| .framed (by simp)) (.framed (by simp))
    exact done.frame (by simp [descrambling_ite])
  case h_2 => exact .refl s

theorem execCeilingWriteComplete (h : execCeilingWriteComplete t s = .next s') : EnginesKept s s' := by
  refine .occurs h fun s => ?_
  split
  · exact .frame (descrambling_lockFreed _) <| .judgeLapses <| .rerunAll <| .framed (by simp)
  · exact .refl s

theorem execBarWriteComplete (h : execBarWriteComplete t s = .next s') : EnginesKept s s' := by
  refine .occurs h fun s => ?_
  split
  · exact .frame (descrambling_lockFreed _) <| .rerunAll <| .framed (by simp)
  · exact .refl s

theorem execPinResetWriteComplete (h : execPinResetWriteComplete t s = .next s') : EnginesKept s s' := by
  refine .occursFramed h fun s => ?_
  split <;> simp

theorem execSetPinWriteComplete (h : execSetPinWriteComplete t s = .next s') : EnginesKept s s' := by
  refine .occursFramed h fun s => ?_
  split <;> simp

theorem execPinFailureWriteComplete (h : execPinFailureWriteComplete t s = .next s') : EnginesKept s s' := by
  refine .occursFramed h fun s => ?_
  split <;> simp [descrambling_ite]

theorem execUnlockWriteComplete (h : execUnlockWriteComplete t s = .next s') : EnginesKept s s' := by
  refine .occurs h fun s => ?_
  split
  · exact .frame (descrambling_lockFreed _) <| .frame (descrambling_reply ..) <| .grant <| .framed (by simp)
  · exact .refl s

theorem execLockoutClearWriteComplete (h : execLockoutClearWriteComplete t s = .next s') : EnginesKept s s' := by
  refine .occursFramed h fun s => ?_
  split <;> simp

theorem execBuyWriteComplete (h : execBuyWriteComplete t s = .next s') : EnginesKept s s' := by
  refine .occurs h fun s => ?_
  split
  · exact .rerunAll <| .framed (by simp)
  · exact .refl s

theorem execCancelWriteComplete (h : execCancelWriteComplete t s = .next s') : EnginesKept s s' := by
  refine .occurs h fun s => ?_
  split
  · exact .rerunAll <| .framed (by simp)
  · exact .refl s

theorem execMeterCloseComplete {service : Nat} (h : execMeterCloseComplete t service s = .next s') :
    EnginesKept s s' := by
  refine .occurs h fun s => ?_
  split
  · exact .afterClose <| .framed (by simp)
  · exact .refl s

theorem execMeterWriteComplete (h : execMeterWriteComplete t s = .next s') : EnginesKept s s' := by
  refine .occursFramed h fun s => ?_
  split <;> simp

theorem execExpiryWriteComplete {title : Nat} (h : execExpiryWriteComplete t title s = .next s') :
    EnginesKept s s' := by
  refine .occursFramed h fun s => ?_
  split <;> simp [State.removeExpired]

theorem execPolicyWriteComplete (h : execPolicyWriteComplete t s = .next s') : EnginesKept s s' := by
  refine .occurs h fun s => ?_
  split
  · exact .frame (descrambling_nextPolicy _) <| .rerunAll <| .judgeLapses <| .framed (by simp)
  · exact .refl s

theorem execRatesWriteComplete (h : execRatesWriteComplete t s = .next s') : EnginesKept s s' := by
  refine .occursFramed h fun s => ?_
  split <;> simp

theorem execTierWriteComplete (h : execTierWriteComplete t s = .next s') : EnginesKept s s' := by
  refine .occurs h fun s => ?_
  split
  · exact .rerunAll <| .framed (by simp)
  · exact .refl s

theorem execReleaseWriteComplete (h : execReleaseWriteComplete t s = .next s') : EnginesKept s s' := by
  refine .occurs h fun s => ?_
  split
  · exact .judgeSettling <| .rerun <| .framed (by simp)
  · exact .refl s

theorem execPresentationWriteComplete (h : execPresentationWriteComplete t s = .next s') : EnginesKept s s' := by
  refine .occursFramed h fun s => ?_
  split <;> simp

theorem execAccessKeyInstallComplete {group : Nat} (h : execAccessKeyInstallComplete t group s = .next s') :
    EnginesKept s s' := by
  refine .occurs h fun s => ?_
  split
  · exact .nextAccessOp <| .framed (by simp)
  · exact .refl s

theorem execGroupRevokeComplete {group : Nat} (h : execGroupRevokeComplete t group s = .next s') :
    EnginesKept s s' := by
  refine .occurs h fun s => ?_
  split
  · exact .nextAccessOp <| .erased <| .framed (by simp)
  · exact .refl s

theorem execSettingsWriteComplete (h : execSettingsWriteComplete t s = .next s') : EnginesKept s s' := by
  refine .occurs h fun s => ?_
  split
  · exact .frame (descrambling_reply ..) <| .frame (descrambling_judgeArmed ..) <| .judgePower <| .framed (by simp)
  · exact .refl s

/-! ## Clocks and deadlines -/

theorem execPurchaseExpiry {title : Nat} (h : execPurchaseExpiry t title s = .next s') : EnginesKept s s' := by
  refine .occurs h fun s => ?_
  split
  · refine .ite (.refl s) ?_
    dsimp only
    split
    · exact .expire <| .framed (by simp)
    · exact .framed (by simp)
  · exact .refl s

theorem execBlockAccrual {service : Nat} (h : execBlockAccrual t service s = .next s') : EnginesKept s s' := by
  refine .occurs h fun s => ?_
  split
  · exact .ite (.judgeBlock (.refl s)) (.framed (by simp))
  · exact .refl s

theorem execNoSignalDeadline {service : Nat} (h : execNoSignalDeadline t service s = .next s') :
    EnginesKept s s' := by
  refine .occurs h fun s => ?_
  split
  · exact .ite (.rerun <| .framed (by simp)) (.refl s)
  · exact .refl s

theorem execStalenessDeadline {service : Nat} (h : execStalenessDeadline t service s = .next s') :
    EnginesKept s s' := by
  refine .occurs h fun s => ?_
  split
  · exact .ite (.programmeChanged <| .framed (by simp)) (.refl s)
  · exact .refl s

theorem execNoKeyDeadline {e : EngineId} (h : execNoKeyDeadline t e s = .next s') : EnginesKept s s' := by
  refine .occurs h fun s => ?_
  split
  case h_1 n last d he =>
    have cleared : EnginesKept s (s.setEngine e (.active n last none)) :=
      .setEngine_same (by rw [he]; cases last <;> exact ⟨rfl, rfl⟩) (.refl s)
    exact .ite (.rerun <| .frame (descrambling_raise ..) cleared) (.refl s)
  case h_2 => exact .refl s

theorem execWarmUpEnd {e : EngineId} (h : execWarmUpEnd t e s = .next s') : EnginesKept s s' := by
  refine .occurs h fun s => ?_
  split
  · exact .ite (.rerun <| .endWarmUp (.refl s)) (.refl s)
  · exact .refl s

theorem execIdleDeadline {e : EngineId} (h : execIdleDeadline t e s = .next s') : EnginesKept s s' := by
  refine .occurs h fun s => ?_
  split
  case h_1 d he => exact .ite (.setEngine_same (by rw [he]; exact ⟨rfl, rfl⟩) (.refl s)) (.refl s)
  case h_2 => exact .refl s

theorem execUnlockEndInstant {screen : Option Screen} (h : execUnlockEndInstant t screen s = .next s') :
    EnginesKept s s' := by
  refine .occurs h fun s => ?_
  split
  · exact .ite (.endUnlock (.refl s)) (.refl s)
  · exact .refl s

theorem execRejoinExpiry {service : Nat} (h : execRejoinExpiry t service s = .next s') : EnginesKept s s' := by
  refine .occurs h fun s => ?_
  split
  · exact .ite (.rerun <| .framed (by simp)) (.refl s)
  · exact .refl s

/-! ## Every command and every step -/

/-- Every command keeps the laws of the engines and of the cell keys. -/
theorem exec (c : Instr) (h : exec c s = .next s') : EnginesKept s s' := by
  cases c with
  | powerOn fastBaud maintenance boot => cases h; exact .powerUp
  | startUpStage5 t =>
    exact .occurs (show execStartUpStage5 t s = _ from h) fun s => .ite (.finishStartUp (.refl s)) (.refl s)
  | lineBreak t boot =>
    exact .occurs (show execLineBreak t boot s = _ from h) fun s => .ite (.breakLine (.refl s)) (.refl s)
  | lineBreakEnd t => exact .occursFramed (show execLineBreakEnd t s = _ from h) fun s => by simp
  | frameReceived t chars => exact .occursFramed (show execFrameReceived t chars s = _ from h) fun s => by simp
  | frameGapTimeout t =>
    exact .occursFramed (show execFrameGapTimeout t s = _ from h) fun s => by simp [descrambling_ite]
  | frameTransmitted t boot => exact .execFrameTransmitted h
  | chargePresented t => exact .execChargePresented h
  | status t => exact .execStatus h
  | screenStatus t => exact .occursRequestFramed h fun _ s => by simp
  | lineupRead t => exact .occursRequestFramed h fun _ s => by simp
  | catalogueRead t => exact .occursRequestFramed h fun _ s => by simp
  | readEvents t => exact .occursRequestFramed h fun _ s => by simp
  | clearEvents t => exact .execClearEvents h
  | setEventMask t => exact .execSetEventMask h
  | journalRead t => exact .execJournalRead h
  | journalRewind t => exact .occursRequestFramed h fun _ s => by simp
  | journalMode t => exact .execJournalMode h
  | settingsRead t => exact .occursRequestFramed h fun _ s => by simp
  | tune t => exact .execTune h
  | screenOff t => exact .execScreenOff h
  | routeHold t => exact .occursRequestFramed h fun _ s => by simp
  | routeRelease t => exact .execRouteRelease h
  | relock t => exact .execRelock h
  | quote t => exact .execQuote h
  | buy t => exact .execBuy h
  | cancel t => exact .execCancel h
  | unlock t => exact .execUnlock h
  | setPin t => exact .execSetPin h
  | restartStreams t => exact .execRestartStreams h
  | settingsWrite t => exact .execSettingsWrite h
  | provision t => exact .execProvision h
  | fullReset t => exact .occursRequestFramed h fun _ s => by simp
  | unknownRequest t => exact .execUnknownRequest h
  | mediaCell t cell => exact .occurs (show execMediaCell t cell s = _ from h) fun s => .arriveMedia (.refl s)
  | descriptorCell t cell =>
    exact .occurs (show execDescriptorCell t cell s = _ from h) fun s => .arriveDescriptor (.refl s)
  | managementCell t cell =>
    exact .occursFramed (show execManagementCell t cell s = _ from h) fun s => by
      simp [arriveManagement, descrambling_ite]
  | filler t cell => exact .occursFramed (show execFiller t cell s = _ from h) fun s => rfl
  | checkIn t => exact .occursMessage h receiveRoom
  | checkOut t => exact .occursMessage h receiveRoom
  | setLimit t => exact .occursMessage h receiveRoom
  | serviceOpen t => exact .occursMessage h receiveRoom
  | serviceClose t => exact .occursMessage h receiveRoom
  | suspend t => exact .occursMessage h receiveRoom
  | resume t => exact .occursMessage h receiveRoom
  | lockdown t => exact .occursMessage h receiveRoom
  | pinReset t => exact .occursMessage h receiveLock
  | setCeiling t => exact .occursMessage h receiveLock
  | bar t => exact .occursMessage h receiveLock
  | grantTier t => exact .occursMessage h (receive takeGrant)
  | revokeTier t => exact .occursMessage h (receive takeRevocation)
  | groupKey t => exact .occursMessage h (receive takeGroupKey)
  | revokeGroup t => exact .occursMessage h (receive takeRevokeGroup)
  | releaseCharges t => exact .occursMessage h (receive takeReleaseBody)
  | setTime t => exact .occursMessage h (receive takeTimeBody)
  | lineup t => exact .occursMessage h (receive takeLineupBody)
  | catalogue t => exact .occursMessage h (receive takeCatalogueBody)
  | keyDelivery t => exact .occursMessage h (receive takeKeyDelivery)
  | setPolicy t => exact .occursMessage h (receive takePolicyBody)
  | setRates t => exact .occursMessage h (receive takeRatesBody)
  | fullResetMessage t => exact .occursMessage h (receive takeFullReset)
  | heldMessageTaken t =>
    exact .occurs (show execHeldMessageTaken t s = _ from h) fun s => .ite (.refl s) (.takeHeld (.refl s))
  | waitingMessageTaken t =>
    exact .occursFramed (show execWaitingMessageTaken t s = _ from h) fun s => by simp [descrambling_ite]
  | keptReleaseBegin t => exact .execKeptReleaseBegin h
  | newFolioWriteComplete t => exact .execNewFolioWriteComplete h
  | folioUpdateWriteComplete t => exact .execFolioUpdateWriteComplete h
  | limitWriteComplete t => exact .execLimitWriteComplete h
  | suspendWriteComplete t => exact .execSuspendWriteComplete h
  | resumeWriteComplete t => exact .execResumeWriteComplete h
  | lockdownWriteComplete t => exact .execLockdownWriteComplete h
  | checkoutClearingComplete t => exact .execCheckoutClearingComplete h
  | provisionWriteComplete t => exact .execProvisionWriteComplete h
  | resetSerialWriteComplete t serial boot =>
    exact .occurs (show execResetSerialWriteComplete t serial boot s = _ from h) fun s => .ite .fullReset (.refl s)
  | ceilingWriteComplete t => exact .execCeilingWriteComplete h
  | barWriteComplete t => exact .execBarWriteComplete h
  | pinResetWriteComplete t => exact .execPinResetWriteComplete h
  | setPinWriteComplete t => exact .execSetPinWriteComplete h
  | pinFailureWriteComplete t => exact .execPinFailureWriteComplete h
  | unlockWriteComplete t => exact .execUnlockWriteComplete h
  | lockoutClearWriteComplete t => exact .execLockoutClearWriteComplete h
  | buyWriteComplete t => exact .execBuyWriteComplete h
  | cancelWriteComplete t => exact .execCancelWriteComplete h
  | meterCloseComplete t service => exact .execMeterCloseComplete h
  | meterWriteComplete t => exact .execMeterWriteComplete h
  | viewingWriteComplete t =>
    exact .occursFramed (show execViewingWriteComplete t s = _ from h) fun s => by simp [descrambling_ite]
  | expiryWriteComplete t title => exact .execExpiryWriteComplete h
  | policyWriteComplete t => exact .execPolicyWriteComplete h
  | ratesWriteComplete t => exact .execRatesWriteComplete h
  | tierWriteComplete t => exact .execTierWriteComplete h
  | releaseWriteComplete t => exact .execReleaseWriteComplete h
  | presentationWriteComplete t => exact .execPresentationWriteComplete h
  | accessKeyInstallComplete t group => exact .execAccessKeyInstallComplete h
  | groupRevokeComplete t group => exact .execGroupRevokeComplete h
  | settingsWriteComplete t => exact .execSettingsWriteComplete h
  | tick t => exact .occursFramed (show execTick t s = _ from h) fun s => by simp [descrambling_ite]
  | purchaseExpiry t title => exact .execPurchaseExpiry h
  | blockAccrual t service => exact .execBlockAccrual h
  | previewAllowanceReached t title =>
    exact .occurs (show execPreviewAllowanceReached t title s = _ from h) fun s =>
      .ite (.rerunAll <| .framed (by simp)) (.refl s)
  | dayBoundary t => exact .occursFramed (show execDayBoundary t s = _ from h) fun s => by simp [descrambling_ite]
  | frameBoundary t =>
    exact .occurs (show execFrameBoundary t s = _ from h) fun s =>
      .ite (.ite (.framed (by simp)) (.showAll <| .framed (descrambling_nextBoundary s))) (.refl s)
  | noSignalDeadline t service => exact .execNoSignalDeadline h
  | stalenessDeadline t service => exact .execStalenessDeadline h
  | noKeyDeadline t engine => exact .execNoKeyDeadline h
  | warmUpEnd t engine => exact .execWarmUpEnd h
  | idleDeadline t engine => exact .execIdleDeadline h
  | noTitleDeadline t screen =>
    exact .occurs (show execNoTitleDeadline t screen s = _ from h) fun s =>
      .ite (.rerun <| .framed (by simp)) (.refl s)
  | routeHoldDeadline t =>
    exact .occurs (show execRouteHoldDeadline t s = _ from h) fun s => .ite (.endHold (.refl s)) (.refl s)
  | presenceProbe t screen display =>
    exact .occurs (show execPresenceProbe t screen display s = _ from h) fun s => .ite (.probe (.refl s)) (.refl s)
  | unlockEndInstant t screen => exact .execUnlockEndInstant h
  | lockoutDeadline t =>
    exact .occursFramed (show execLockoutDeadline t s = _ from h) fun s => by simp [descrambling_ite]
  | rejoinExpiry t service => exact .execRejoinExpiry h
  | maintenanceWindowEnd t =>
    exact .occursFramed (show execMaintenanceWindowEnd t s = _ from h) fun s => by simp [descrambling_ite]
  | frameBegins t => exact .occursFramed (show execFrameBegins t s = _ from h) fun s => by simp [descrambling_ite]
  | badLength t length =>
    exact .occursFramed (show execBadLength t length s = _ from h) fun s => by simp [descrambling_ite]
  | powerLoss => cases h; exact .ite (.refl s) .powerDown

/-- Every step keeps the laws: the command at the front of the queue does, and an idle step changes nothing. -/
theorem step (h : step s = .next s') : EnginesKept s s' := by
  unfold Machine.step at h
  split at h
  case h_1 c rest _ =>
    have taken : EnginesKept s { s with pending := rest } := .framed rfl
    exact taken.trans (.exec c h)
  case h_2 =>
    cases h
    exact .refl s

end Sys2Proof.Machine.EnginesKept

namespace Sys2Proof.Machine

/-- Settles O59: both laws are among those that `EnginesKept.step` keeps. -/
theorem everyStepKeepsEnginesAndPendingKeysLawful : Obligations.EveryStepKeepsEnginesAndPendingKeysLawful :=
  ⟨fun _ _ hb h => (EnginesKept.step h).binding hb, fun _ _ hk h => (EnginesKept.step h).keys hk⟩

end Sys2Proof.Machine
end

section
/-! PROOF. Descrambling: the numbers a word's bytes spell, the keystream word, and the payload word by word (R61,
R180; O13). -/

namespace Sys2Proof.Machine

/-! ## Numbers and their bytes (R180) -/

theorem leNat_leBytes (width n : Nat) : leNat (leBytes width n) = n % 256 ^ width := by
  induction width generalizing n with
  | zero => simp [leBytes, leNat, Nat.mod_one]
  | succ w ih =>
    have hsplit : n % 256 ^ (w + 1) = n % 256 + 256 * (n / 256 % 256 ^ w) := by rw [Nat.pow_succ', Nat.mod_mul]
    rw [leBytes, leNat, ih, BitVec.toNat_ofNat, hsplit]

theorem leBytes_leNat (bs : List Byte) : leBytes bs.length (leNat bs) = bs := by
  induction bs with
  | nil => rfl
  | cons b bs ih =>
    have hbyte : BitVec.ofNat 8 (b.toNat + 256 * leNat bs) = b := by
      apply BitVec.eq_of_toNat_eq
      rw [BitVec.toNat_ofNat]
      omega
    have hrest : (b.toNat + 256 * leNat bs) / 256 = leNat bs := by omega
    rw [List.length_cons, leNat, leBytes, hbyte, hrest, ih]

/-! ## One word (R61) -/

theorem keystreamWord_toNat (key : Key) (service count j : Nat) :
    (keystreamWord key service count j).toNat =
      (key.toNat % 2 ^ 32 * (count * 64 + j + 1) + key.toNat / 2 ^ 32 + service) % 2 ^ 32 := by
  simp only [keystreamWord, BitVec.toNat_add, BitVec.toNat_mul, BitVec.toNat_ofNat, BitVec.extractLsb'_toNat,
    Nat.shiftRight_eq_div_pow, Nat.pow_zero, Nat.div_one]
  simp only [Nat.add_mod, Nat.mul_mod, Nat.mod_mod]

/-- A word of four bytes combined with a keystream word. -/
def xorWord (k : Word32) (bs : List Byte) : List Byte := leBytes 4 (BitVec.ofNat 32 (leNat bs) ^^^ k).toNat

theorem xorWord_length (k : Word32) (bs : List Byte) : (xorWord k bs).length = 4 := leBytes_length ..

theorem leNat_xorWord (k : Word32) {bs : List Byte} (h : bs.length = 4) :
    leNat (xorWord k bs) = leNat bs ^^^ k.toNat := by
  have hlt : leNat bs < 2 ^ 32 := by simpa [h] using leNat_lt bs
  rw [xorWord, leNat_leBytes, Nat.mod_eq_of_lt (by exact BitVec.isLt _), BitVec.toNat_xor, BitVec.toNat_ofNat,
    Nat.mod_eq_of_lt hlt]

theorem xorWord_xorWord (k : Word32) {bs : List Byte} (h : bs.length = 4) : xorWord k (xorWord k bs) = bs := by
  have hback : leNat (xorWord k (xorWord k bs)) = leNat bs := by
    rw [leNat_xorWord k (xorWord_length k bs), leNat_xorWord k h, Nat.xor_assoc, Nat.xor_self, Nat.xor_zero]
  calc xorWord k (xorWord k bs)
      = leBytes 4 (leNat (xorWord k (xorWord k bs))) := by
        rw [← xorWord_length k (xorWord k bs), leBytes_leNat]
    _ = bs := by rw [hback, ← h, leBytes_leNat]

/-! ## The payload, word by word -/

section

variable (key : Key) (service count : Nat)

theorem decodeWords_succ (n j : Nat) (bs : List Byte) :
    decodeWords key service count (n + 1) j bs =
      xorWord (keystreamWord key service count j) (bs.take 4) ++
        decodeWords key service count n (j + 1) (bs.drop 4) := rfl

theorem decodeWords_length (n j : Nat) (bs : List Byte) : (decodeWords key service count n j bs).length = 4 * n := by
  induction n generalizing j bs with
  | zero => rfl
  | succ n ih => rw [decodeWords_succ, List.length_append, xorWord_length, ih]; omega

theorem decodeWords_word {n i : Nat} (hi : i < n) (j : Nat) (bs : List Byte) :
    ((decodeWords key service count n j bs).drop (4 * i)).take 4 =
      xorWord (keystreamWord key service count (j + i)) ((bs.drop (4 * i)).take 4) := by
  induction n generalizing i j bs with
  | zero => omega
  | succ n ih =>
    rw [decodeWords_succ]
    cases i with
    | zero => exact List.take_left' (xorWord_length ..)
    | succ i =>
      have hskip : 4 * (i + 1) = 4 + 4 * i := by omega
      rw [hskip, ← List.drop_drop, List.drop_left' (xorWord_length ..), ih (by omega), List.drop_drop,
        Nat.add_right_comm, Nat.add_assoc]

theorem decodeWords_decodeWords (n j : Nat) {bs : List Byte} (h : bs.length = 4 * n) :
    decodeWords key service count n j (decodeWords key service count n j bs) = bs := by
  induction n generalizing j bs with
  | zero => exact (List.length_eq_zero_iff.1 h).symm
  | succ n ih =>
    rw [decodeWords_succ, decodeWords_succ, List.take_left' (xorWord_length ..), List.drop_left' (xorWord_length ..),
      xorWord_xorWord _ (by rw [List.length_take]; omega), ih _ (by rw [List.length_drop]; omega),
      List.take_append_drop]

end

/-- Settles O13: `descramble` decodes 38 words from word 0 on, and each word undoes itself. -/
theorem descramblingFollowsTheKeystream : Obligations.DescramblingFollowsTheKeystream := by
  intro key service count payload hlength
  refine ⟨decodeWords_length .., fun j hj => ?_, decodeWords_decodeWords _ _ _ _ _ hlength⟩
  have hword : ((payload.drop (4 * j)).take 4).length = 4 := by
    rw [List.length_take, List.length_drop]
    omega
  show leNat _ = _
  rw [descramble, decodeWords_word _ _ _ hj, leNat_xorWord _ hword, keystreamWord_toNat, Nat.zero_add]

end Sys2Proof.Machine
end

section
/-! PROOF. Access operations: GROUP_KEY and REVOKE_GROUP begin, keep or skip them, and what their completions do (R52,
R53, R59, R60; O14). -/

namespace Sys2Proof.Machine

/-! ## When an operation is kept, and when it would change nothing -/

theorem opIsIdle_install_iff (s : State) (g : Nat) (key : Key) :
    s.opIsIdle g (.install key) = true ↔ s.cur.accessKeys.getD g none = some key := beq_iff_eq

theorem KeyGroup.noKeys_iff (k : KeyGroup) :
    k.noKeys = true ↔ ∀ p, (k.slot p).current = none ∧ (k.slot p).pending = none := by
  have parities (P : Parity → Prop) : (∀ p, P p) ↔ P .even ∧ P .odd :=
    ⟨fun h => ⟨h _, h _⟩, fun h p => by cases p <;> simp [h]⟩
  simp [KeyGroup.noKeys, KeyGroup.slot, parities, and_assoc]

theorem opIsIdle_revoke_iff (s : State) (g : Nat) :
    s.opIsIdle g .revoke = true ↔ s.cur.accessKeys.getD g none = none ∧
      ∀ p, ((s.keyGroup g).slot p).current = none ∧ ((s.keyGroup g).slot p).pending = none := by
  rw [← KeyGroup.noKeys_iff]
  simp [State.opIsIdle, State.accessKey]

/-- An operation taken: kept where another is in flight or a new-room PROVISION is, else begun unless it is idle. -/
theorem takeAccessOp_taken (g : Nat) (op : AccessOp) {idle : Prop} {s : State}
    (hidle : s.opIsIdle g op = true ↔ idle) :
    if (s.keyGroup g).inFlight ≠ none ∨ ∃ p, s.port.provision = some p ∧ p.newRoom = true then
      s.takeAccessOp g op = { s with keys := s.keys.set g { s.keyGroup g with next := some op } }
    else (idle → s.takeAccessOp g op = s) ∧
      (¬ idle → s.takeAccessOp g op = { s with keys := s.keys.set g { s.keyGroup g with inFlight := some op } }) := by
  have hkept : ((s.keyGroup g).inFlight.isSome || s.newRoomWriting) = true ↔
      (s.keyGroup g).inFlight ≠ none ∨ ∃ p, s.port.provision = some p ∧ p.newRoom = true := by
    rw [Bool.or_eq_true, newRoomWriting_iff, Option.isSome_iff_ne_none]
  unfold State.takeAccessOp
  simp only [hkept]
  split
  case isTrue => rfl
  case isFalse => exact ⟨fun h => if_pos (hidle.2 h), fun h => if_neg (h ∘ hidle.1)⟩

/-! ## GROUP_KEY and REVOKE_GROUP (R52, R53, R59) -/

theorem takeAccessOp_decoder (g : Nat) (op : AccessOp) (s : State) :
    (s.takeAccessOp g op).decoder = s.decoder := by
  unfold State.takeAccessOp
  repeat' split
  all_goals rfl

theorem takeGroupKey_handed (m : MsgBody) (s : State) : (s.takeGroupKey m).decoder.handed = s.decoder.handed := by
  unfold State.takeGroupKey
  repeat' split
  all_goals first | rfl | rw [takeAccessOp_decoder]

theorem takeRevokeGroup_handed (m : MsgBody) (s : State) :
    (s.takeRevokeGroup m).decoder.handed = s.decoder.handed := by
  unfold State.takeRevokeGroup
  split
  · rw [takeAccessOp_decoder]
  · rfl

/-- Under the unit key, a GROUP_KEY whose check byte passes is an INSTALL of the unwrapped key, and any other is
dropped. -/
theorem takeGroupKey_unwrapped {s : State} {unit : Key} (h : s.cur.unitKey = some unit) (g : Nat)
    (wrapped : List Byte) (check : Byte) :
    s.takeGroupKey (.groupKey g wrapped check) =
      if ((unwrap unit wrapped).map (·.toNat)).sum % 256 = check.toNat then
        s.takeAccessOp g (.install (keyOfBytes (unwrap unit wrapped)))
      else s.keyDropped := by
  simp only [State.takeGroupKey, h, checkByteOk_iff]

/-! ## Completions (R53, R59) -/

/-- A group with an operation in flight is one the Key Store holds. -/
theorem lt_of_inFlight {s : State} {g : Nat} {op : AccessOp} (h : (s.keyGroup g).inFlight = some op) :
    g < s.keys.length := by
  by_contra hg
  have hempty : s.keyGroup g = .empty := by simp [State.keyGroup, Nat.le_of_not_lt hg]
  rw [hempty] at h
  cases h

theorem nextAccessOp_eq (g : Nat) (s : State) :
    s.nextAccessOp g =
      let ended := { s with keys := s.keys.set g { s.keyGroup g with inFlight := none, next := none } }
      match (s.keyGroup g).next with
      | some next => ended.takeAccessOp g next
      | none => ended := by
  unfold State.nextAccessOp
  cases hnext : (s.keyGroup g).next with
  | some next => rfl
  | none =>
    have hsame : { s.keyGroup g with inFlight := none, next := none } = { s.keyGroup g with inFlight := none } := by
      rw [← hnext]
    exact congrArg (fun k => { s with keys := s.keys.set g k }) hsame.symm

theorem exec_accessKeyInstallComplete {t g : Nat} {s : State} {key : Key} (hp : s.power ≠ .off)
    (h : (s.keyGroup g).inFlight = some (.install key)) :
    exec (.accessKeyInstallComplete t g) s =
      .next (((s.atInstant t).durably (.setAccessKey g (some key))).nextAccessOp g) := by
  have hflight : ((s.atInstant t).keyGroup g).inFlight = some (.install key) := h
  simp only [exec, execAccessKeyInstallComplete, occurs_powered hp, hflight]

theorem exec_groupRevokeComplete {t g : Nat} {s : State} (hp : s.power ≠ .off)
    (h : (s.keyGroup g).inFlight = some .revoke) :
    exec (.groupRevokeComplete t g) s =
      .next ((((s.atInstant t).durably (.setAccessKey g none)).onKeyGroup g .erased).nextAccessOp g) := by
  have hflight : ((s.atInstant t).keyGroup g).inFlight = some .revoke := h
  simp only [exec, execGroupRevokeComplete, occurs_powered hp, hflight]

/-- A group the Key Store holds, changed. -/
theorem keyGroup_onKeyGroup {s : State} {g : Nat} (hg : g < s.keys.length) (f : KeyGroup → KeyGroup) :
    (s.onKeyGroup g f).keyGroup g = f (s.keyGroup g) := by
  simp [State.keyGroup, State.onKeyGroup, hg]

/-- Settles O14: the two messages by the cases of an operation taken, the completions by what `nextAccessOp` does. -/
theorem accessOperationsFollowKeyMessages : Obligations.AccessOperationsFollowKeyMessages := by
  refine ⟨fun t s scope issue g wrapped check unit ha hunit => ?_, fun t s scope issue g ha => ?_,
    fun t s scope issue g wrapped check ha hunit => ?_, fun t g s op hp hflight => ?_⟩
  · intro s₀ bytes key
    refine ⟨_, exec_takesMessage (c := .groupKey t) (fun _ => rfl) takeGroupKey_handed ha rfl, ?_⟩
    have hcases := takeGroupKey_unwrapped (s := s₀) hunit g wrapped check
    split
    case isTrue hgood =>
      rw [hcases.trans (if_pos hgood)]
      exact takeAccessOp_taken g _ (opIsIdle_install_iff s₀ g key)
    case isFalse hbad => exact hcases.trans (if_neg hbad)
  · exact ⟨_, exec_takesMessage (c := .revokeGroup t) (fun _ => rfl) takeRevokeGroup_handed ha rfl,
      takeAccessOp_taken g _ (opIsIdle_revoke_iff _ g)⟩
  · rw [exec_takesMessage (c := .groupKey t) (fun _ => rfl) takeGroupKey_handed ha rfl]
    have hnone : (s.receiving scope issue (.groupKey g wrapped check) t).cur.unitKey = none := hunit
    simp only [State.takeGroupKey, hnone]
  · intro held ended s₀
    have hg := lt_of_inFlight hflight
    cases op with
    | install key =>
      rw [exec_accessKeyInstallComplete hp hflight, nextAccessOp_eq]
      rfl
    | revoke =>
      have hgroup : (((s.atInstant t).durably (.setAccessKey g none)).onKeyGroup g .erased).keyGroup g =
          (s.keyGroup g).erased := keyGroup_onKeyGroup hg _
      rw [exec_groupRevokeComplete hp hflight, nextAccessOp_eq, hgroup]
      simp only [State.onKeyGroup, State.onKeys, List.set_set] <;> rfl

end Sys2Proof.Machine
end

section
/-! PROOF. SETTINGS_WRITE: the settings its items ask for, and its write's completion (R75, R149, R170; O48). -/

namespace Sys2Proof.Machine

/-! ## The items of the body (R170, R183) -/

/-- An item of a SETTINGS_WRITE, as its three bytes travel. -/
def settingBytes (i : Byte × BitVec 16) : List Byte := i.1 :: leBytes 2 i.2.toNat

theorem settingBytes_append (i : Byte × BitVec 16) (rest : List Byte) :
    field 0 1 (settingBytes i ++ rest) = i.1.toNat ∧ field 1 2 (settingBytes i ++ rest) = i.2.toNat ∧
      (settingBytes i ++ rest).drop 3 = rest := by
  refine ⟨Nat.add_zero _, ?_, rfl⟩
  calc field 1 2 (settingBytes i ++ rest) = leNat (leBytes 2 i.2.toNat) := rfl
    _ = i.2.toNat % 256 ^ 2 := leNat_leBytes ..
    _ = i.2.toNat := Nat.mod_eq_of_lt i.2.isLt

theorem settingCodes_items (items : List (Byte × BitVec 16)) :
    settingCodes items.length (items.map settingBytes).flatten = items.map fun i => i.1.toNat := by
  induction items with
  | nil => rfl
  | cons i is ih =>
    obtain ⟨hcode, -, hrest⟩ := settingBytes_append i (is.map settingBytes).flatten
    rw [List.length_cons, List.map_cons, List.flatten_cons, settingCodes, hcode, hrest, ih, List.map_cons]

/-- The items are applied one after another. -/
theorem settingItems_items (items : List (Byte × BitVec 16)) (x : Settings) :
    settingItems items.length (items.map settingBytes).flatten x =
      items.foldlM (fun x i => settingItem i.1.toNat i.2.toNat x) x := by
  induction items generalizing x with
  | nil => rfl
  | cons i is ih =>
    obtain ⟨hcode, hvalue, hrest⟩ := settingBytes_append i (is.map settingBytes).flatten
    rw [List.length_cons, List.map_cons, List.flatten_cons, settingItems, hcode, hvalue, hrest, List.foldlM_cons]
    cases settingItem i.1.toNat i.2.toNat x with
    | none => rfl
    | some y => exact ih y

theorem settingsOfBody_items (items : List (Byte × BitVec 16)) (x : Settings) (h : items.length < 256) :
    settingsOfBody (byte items.length :: (items.map settingBytes).flatten) x =
      if 1 ≤ items.length ∧ items.length ≤ 4 ∧ (items.map fun i => i.1.toNat).Nodup then
        items.foldlM (fun x i => settingItem i.1.toNat i.2.toNat x) x
      else none := by
  have hcount : field 0 1 (byte items.length :: (items.map settingBytes).flatten) = items.length :=
    (BitVec.toNat_ofNat ..).trans (Nat.mod_eq_of_lt h)
  rw [settingsOfBody, hcount, List.drop_succ_cons, List.drop_zero, settingCodes_items, settingItems_items]

/-! ## What an item makes of the settings (R170) -/

/-- The value of the setting of a code, the power policy by its own code. -/
def Settings.value (x : Settings) : Nat → Nat
  | 0 => x.power.code
  | 1 => x.probe
  | 2 => x.frameRate
  | _ => x.highMark

/-- The value that the setting of a code takes for the value named. -/
def settingClamped (code v : Nat) : Nat :=
  match code with
  | 0 => if v = 0 then 0 else 1
  | 1 => if v ≤ 2 then 1 else 4
  | 2 => if v ≤ 55 then 50 else 60
  | _ => max 1 (min 63 v)

theorem settingItem_none_iff (code v : Nat) (x : Settings) :
    settingItem code v x = none ↔ 3 < code ∨ code = 0 ∧ 1 < v := by
  unfold settingItem
  split
  case h_1 => split <;> grind
  case h_5 => grind
  all_goals simp

theorem value_settingItem {code v : Nat} {x y : Settings} (h : settingItem code v x = some y) :
    y.value code = settingClamped code v ∧ ∀ c ≤ 3, c ≠ code → y.value c = x.value c := by
  unfold settingItem at h
  split at h
  case h_1 =>
    split at h
    case h_3 => cases h
    all_goals cases h; exact ⟨rfl, fun c hc hne => by interval_cases c <;> first | rfl | exact absurd rfl hne⟩
  case h_5 => cases h
  all_goals cases h; exact ⟨rfl, fun c hc hne => by interval_cases c <;> first | rfl | exact absurd rfl hne⟩

theorem settingItems_none_iff (items : List (Byte × BitVec 16)) (x : Settings) :
    items.foldlM (fun x i => settingItem i.1.toNat i.2.toNat x) x = none ↔
      ∃ i ∈ items, 3 < i.1.toNat ∨ i.1.toNat = 0 ∧ 1 < i.2.toNat := by
  induction items generalizing x with
  | nil => simp
  | cons i is ih =>
    rw [List.foldlM_cons, List.exists_mem_cons_iff, ← settingItem_none_iff _ _ x]
    cases settingItem i.1.toNat i.2.toNat x with
    | none => simp
    | some y => simpa using ih y

/-- Items of different codes: each gives its setting the clamped value, and the settings not named stay. -/
theorem value_settingItems {items : List (Byte × BitVec 16)} {x y : Settings}
    (hcodes : (items.map fun i => i.1.toNat).Nodup)
    (h : items.foldlM (fun x i => settingItem i.1.toNat i.2.toNat x) x = some y) :
    (∀ c ≤ 3, c ∉ items.map (fun i => i.1.toNat) → y.value c = x.value c) ∧
      ∀ i ∈ items, y.value i.1.toNat = settingClamped i.1.toNat i.2.toNat := by
  induction items generalizing x with
  | nil => cases h; simp
  | cons i is ih =>
    rw [List.map_cons, List.nodup_cons] at hcodes
    rw [List.foldlM_cons] at h
    obtain ⟨z, hz, hy⟩ := Option.bind_eq_some_iff.1 h
    obtain ⟨hclamped, hothers⟩ := value_settingItem hz
    obtain ⟨hkept, hnamed⟩ := ih hcodes.2 hy
    have hknown : i.1.toNat ≤ 3 := by
      by_contra hc
      rw [(settingItem_none_iff _ _ x).2 (.inl (by omega))] at hz
      cases hz
    refine ⟨fun c hc hnot => ?_, List.forall_mem_cons.2 ⟨?_, hnamed⟩⟩
    · simp only [List.map_cons, List.mem_cons, not_or] at hnot
      rw [hkept c hc hnot.2, hothers c hc hnot.1]
    · rw [hkept _ hknown hcodes.1, hclamped]

theorem PowerPolicy.code_inj {p q : PowerPolicy} (h : p.code = q.code) : p = q := by
  cases p <;> cases q <;> first | rfl | cases h

theorem settingsOfBody_none_iff (items : List (Byte × BitVec 16)) (x : Settings) (h : items.length < 256) :
    settingsOfBody (byte items.length :: (items.map settingBytes).flatten) x = none ↔
      items.length = 0 ∨ 4 < items.length ∨ ¬ (items.map fun i => i.1.toNat).Nodup ∨
        ∃ i ∈ items, 3 < i.1.toNat ∨ i.1.toNat = 0 ∧ 1 < i.2.toNat := by
  rw [settingsOfBody_items items x h]
  split
  case isTrue hform =>
    obtain ⟨hsome, hfour, hcodes⟩ := hform
    rw [settingItems_none_iff]
    simp [hcodes, Nat.not_lt.2 hfour, Nat.one_le_iff_ne_zero.1 hsome]
  case isFalse hform =>
    simp only [true_iff]
    by_contra hnot
    simp only [not_or, not_not] at hnot
    obtain ⟨hsome, hfour, hcodes, -⟩ := hnot
    exact hform ⟨by omega, by omega, hcodes⟩

/-! ## The completion (R75, R149) -/

/-- What a changed power policy makes of an engine, at an instant, beside the new policy and the suspension. -/
def Engine.underPolicy (now : Nat) (power : PowerPolicy) (suspended : Bool) (e : Engine) : Engine :=
  match e, power with
  | .ready _, .auto => .ready (some (now + 10000))
  | .ready _, .always => .ready none
  | .off, .always => if suspended then .off else .warming none (now + 40)
  | e, _ => e

theorem powerPolicyChanged_eq (s : State) :
    s.powerPolicyChanged = { s with pool := { s.pool with
      engines := s.pool.engines.map (.underPolicy s.time.now s.cur.settings.power s.cur.room.suspended) } } := by
  have hmap (x : Engine) : (x.repolicied s.idleDeadline).poweredIf s.cur.powersEngines (s.time.now + 40) =
      x.underPolicy s.time.now s.cur.settings.power s.cur.room.suspended := by
    rw [idleDeadline_eq, Retained.powersEngines]
    cases s.cur.settings.power <;> cases s.cur.room.suspended <;> cases x <;> rfl
  rw [State.powerPolicyChanged, powerEngines_eq]
  simp only [Three.map, State.onPool, ← hmap]

theorem judgePower_eq (old : Settings) (s : State) :
    s.judgePower old = { s with pool :=
      if s.cur.settings.power = old.power then s.pool
      else { s.pool with
        engines := s.pool.engines.map (.underPolicy s.time.now s.cur.settings.power s.cur.room.suspended) } } := by
  unfold State.judgePower
  split
  · rfl
  · exact powerPolicyChanged_eq s

theorem judgeArmed_eq (old : Settings) (s : State) :
    s.judgeArmed old = { s with journal :=
      if s.cur.settings.highMark = old.highMark then s.journal
      else { s.journal with armed := decide (s.cur.records.length + s.cur.reserved < s.cur.settings.highMark) } } := by
  unfold State.judgeArmed
  split <;> rfl

theorem settingsField_eq (x : Settings) :
    settingsField x = [if x.power = .auto then 0 else 1, byte x.probe, byte x.frameRate, byte x.highMark] := by
  unfold settingsField
  cases x.power <;> rfl

theorem exec_settingsWriteComplete {t : Nat} {s : State} {x : Settings} (hp : s.power ≠ .off)
    (h : s.port.settings = some x) :
    exec (.settingsWriteComplete t) s = .next
      ((((((s.atInstant t).durably fun r => { r with settings := x }).onPort fun p =>
        { p with settings := none }).judgePower s.cur.settings).judgeArmed s.cur.settings).reply .ok
          (settingsField x)) := by
  rw [show exec (.settingsWriteComplete t) s = execSettingsWriteComplete t s from rfl, execSettingsWriteComplete,
    occurs_powered hp]
  simp only [show (s.atInstant t).port.settings = some x from h]
  rfl

/-- Settles O48: the body item by item, the request's answers, and the completion of its write. -/
theorem settingsAreClampedAndTakeEffectTogether : Obligations.SettingsAreClampedAndTakeEffectTogether := by
  refine ⟨fun items x hlen => ⟨?_, fun y hy => ?_⟩, fun t s r hb => ?_, fun t s x hp hw => ?_⟩
  · have hzero (b : Byte) : b = 0 ↔ b.toNat = 0 := ⟨fun h => by rw [h]; rfl, fun h => BitVec.eq_of_toNat_eq h⟩
    simp only [hzero]
    exact settingsOfBody_none_iff items x hlen
  · replace hy := (settingsOfBody_items items x hlen).symm.trans hy
    obtain ⟨⟨-, -, hcodes⟩, hy⟩ := Option.ite_none_right_eq_some.1 hy
    obtain ⟨hkept, hnamed⟩ := value_settingItems hcodes hy
    refine ⟨fun h => PowerPolicy.code_inj (hkept 0 (by omega) h), hkept 1 (by omega), hkept 2 (by omega),
      hkept 3 (by omega), fun i hi => ?_⟩
    have hvalue := hnamed i hi
    refine ⟨fun h => ?_, fun h => ?_, fun h => ?_, fun h => ?_⟩ <;> rw [h] at hvalue
    · refine PowerPolicy.code_inj (hvalue.trans ?_)
      show (if i.2.toNat = 0 then 0 else 1) = _
      split <;> rfl
    all_goals exact hvalue
  · rw [show exec (.settingsWrite t) s = execSettingsWrite t s from rfl, execSettingsWrite, occurs_powered hb.powered,
      request_begins t hb]
    rfl
  · rw [exec_settingsWriteComplete hp hw, settingsField_eq, judgeArmed_eq, judgePower_eq]
    rfl

end Sys2Proof.Machine
end

section
/-! PROOF. The Engine Pool's answer to a request for a service (R69; O16). -/

namespace Sys2Proof.Machine

/-! ## The lowest-numbered engine of a sort -/

theorem find?_allEngines_iff : ∀ (p : EngineId → Bool) (e : EngineId),
    allEngines.find? p = some e ↔ p e = true ∧ ∀ d < e, p d = false := by decide

theorem engineWhere_eq_some_iff {s : State} {p : Engine → Bool} {e : EngineId} :
    s.engineWhere p = some e ↔ p (s.engine e) = true ∧ ∀ d < e, p (s.engine d) = false :=
  find?_allEngines_iff (fun e => p (s.engine e)) e

theorem engineWhere_eq_none_iff {s : State} {p : Engine → Bool} :
    s.engineWhere p = none ↔ ∀ e, p (s.engine e) = false := by
  refine ⟨engineWhere_none, fun h => List.find?_eq_none.2 fun e _ => ?_⟩
  simp [h e]

theorem boundEngine_eq_some_iff {s : State} {n : Nat} {e : EngineId} :
    s.boundEngine n = some e ↔ (s.engine e).bound = some n ∧ ∀ d < e, (s.engine d).bound ≠ some n := by
  simp only [State.boundEngine, engineWhere_eq_some_iff, beq_iff_eq, beq_eq_false_iff_ne]

theorem boundEngine_eq_none_iff {s : State} {n : Nat} :
    s.boundEngine n = none ↔ ∀ e, (s.engine e).bound ≠ some n := by
  simp only [State.boundEngine, engineWhere_eq_none_iff, beq_eq_false_iff_ne]

theorem Engine.isReady_iff (x : Engine) : x.isReady = true ↔ ∃ i, x = .ready i := by
  cases x <;> simp [Engine.isReady]

theorem Engine.isFreeWarming_iff (x : Engine) : x.isFreeWarming = true ↔ ∃ d, x = .warming none d := by
  cases x with
  | warming target _ => cases target <;> simp [Engine.isFreeWarming]
  | _ => simp [Engine.isFreeWarming]

theorem Engine.isOff_iff (x : Engine) : x.isOff = true ↔ x = .off := by
  cases x <;> simp [Engine.isOff]

/-! ## The cases of R69 -/

/-- The state once output o holds engine e, which is as `x` says, and waits no more. -/
def State.holding (o : Screen) (e : EngineId) (x : Engine) (s : State) : State :=
  { s with
    pool := ⟨s.pool.engines.set x e, unwait o s.pool.wait⟩
    router := { s.router with outputs := s.router.outputs.set ((s.output o).hold e) o } }

theorem Three.set_get (f : Three α) (e : EngineId) : f.set (f.get e) e = f := by
  fin_cases e <;> rfl

theorem engines_set_engine (s : State) (e : EngineId) : s.pool.engines.set (s.engine e) e = s.pool.engines :=
  Three.set_get ..

section

variable {o : Screen} {n : Nat} {e : EngineId} {s : State}

theorem obtainEngine_bound (h : s.boundEngine n = some e) :
    s.obtainEngine o n = s.holding o e (s.engine e) := by
  simp only [State.obtainEngine, h, State.holding, engines_set_engine]
  rfl

theorem obtainEngine_ready (hbound : s.boundEngine n = none) (h : s.engineWhere Engine.isReady = some e) :
    s.obtainEngine o n = s.holding o e (.active n none (some (s.time.now + 500))) := by
  simp only [State.obtainEngine, hbound, h]
  rfl

theorem obtainEngine_freeWarming {d : Nat} (hbound : s.boundEngine n = none)
    (hready : s.engineWhere Engine.isReady = none) (h : s.engineWhere Engine.isFreeWarming = some e)
    (hd : s.engine e = .warming none d) : s.obtainEngine o n = s.holding o e (.warming (some n) d) := by
  simp only [State.obtainEngine, hbound, hready, h, hd]
  rfl

theorem obtainEngine_off (hbound : s.boundEngine n = none) (hready : s.engineWhere Engine.isReady = none)
    (hfree : s.engineWhere Engine.isFreeWarming = none) (h : s.engineWhere Engine.isOff = some e) :
    s.obtainEngine o n = s.holding o e (.warming (some n) (s.time.now + 40)) := by
  simp only [State.obtainEngine, hbound, hready, hfree, h]
  rfl

theorem obtainEngine_wait (hbound : s.boundEngine n = none) (hready : s.engineWhere Engine.isReady = none)
    (hfree : s.engineWhere Engine.isFreeWarming = none) (hoff : s.engineWhere Engine.isOff = none) :
    s.obtainEngine o n = { s with pool := { s.pool with wait := joinWait o n s.pool.wait } } := by
  simp only [State.obtainEngine, hbound, hready, hfree, hoff]
  rfl

end

theorem joinWait_eq (o : Screen) (n : Nat) (ws : List WaitEntry) :
    joinWait o n ws =
      if ∃ w ∈ ws, w.service = n then
        ws.map fun w => if w.service = n ∧ o ∉ w.outputs then { w with outputs := w.outputs ++ [o] } else w
      else ws ++ [⟨n, [o]⟩] := by
  simp [joinWait]

/-- Settles O16: each of the cases where those before it do not apply. -/
theorem engineRequestIsAnsweredByTheSixCases : Obligations.EngineRequestIsAnsweredByTheSixCases := by
  intro o n s first ofService ready targetless isOff holding
  have first_of {p : Engine → Bool} {q : Engine → Prop} (hq : ∀ x, p x = true ↔ q x) {e : EngineId}
      (h : first q e) : s.engineWhere p = some e :=
    engineWhere_eq_some_iff.2 ⟨(hq _).2 h.1, fun d hd => by simpa [← hq] using h.2 d hd⟩
  have none_of {p : Engine → Bool} {q : Engine → Prop} (hq : ∀ x, p x = true ↔ q x)
      (h : ∀ e, ¬ q (s.engine e)) : s.engineWhere p = none :=
    engineWhere_eq_none_iff.2 fun e => by simpa [← hq] using h e
  refine ⟨fun e he => obtainEngine_bound (boundEngine_eq_some_iff.2 he), fun hbound => ?_⟩
  replace hbound := boundEngine_eq_none_iff.2 hbound
  refine ⟨fun e he => obtainEngine_ready hbound (first_of Engine.isReady_iff he), fun hready => ?_⟩
  replace hready := none_of Engine.isReady_iff hready
  refine ⟨fun e d he hd => obtainEngine_freeWarming hbound hready (first_of Engine.isFreeWarming_iff he) hd,
    fun hfree => ?_⟩
  replace hfree := none_of Engine.isFreeWarming_iff hfree
  refine ⟨fun e he => obtainEngine_off hbound hready hfree (first_of Engine.isOff_iff he), fun hoff => ?_⟩
  rw [obtainEngine_wait hbound hready hfree (none_of Engine.isOff_iff hoff), joinWait_eq]

end Sys2Proof.Machine
end

section
/-! PROOF. Parities in use and the promotion of pending keys; the release of an engine; and the deadlines of the
engines (R55, R57, R63, R64, R71 to R74; O17). -/

namespace Sys2Proof.Machine

/-! ## Parities in use and promotion (R55, R57) -/

theorem parityInUse_iff_active (s : State) (g : Nat) (p : Parity) :
    s.parityInUse g p = true ↔ ∃ e n noKeyAt r, s.engine e = .active n (some p) noKeyAt ∧
      s.service n = some r ∧ r.keyGroup = some g := by
  have hdecodes (x : Engine) (n : Nat) : x.decodes = some (n, p) ↔ ∃ noKeyAt, x = .active n (some p) noKeyAt := by
    unfold Engine.decodes
    split <;> simp_all
  simp only [parityInUse_iff, hdecodes, State.groupOf, Option.bind_eq_some_iff]
  grind

theorem length_promoteFrom (used : Nat → Parity → Bool) (g : Nat) (ks : List KeyGroup) :
    (promoteFrom used g ks).length = ks.length := by
  induction ks generalizing g with
  | nil => rfl
  | cons k ks ih => simp [promoteFrom, ih]

theorem keyGroup_of_getElem? {s : State} {g : Nat} {k : KeyGroup} (h : s.keys[g]? = some k) : s.keyGroup g = k := by
  simp [State.keyGroup, h]

/-- A pending key of a parity that is not in use becomes current, and none is pending. -/
theorem slot_promoteKeys (s : State) (g : Nat) (p : Parity) :
    (s.promoteKeys.keyGroup g).slot p =
      if s.parityInUse g p then (s.keyGroup g).slot p else ((s.keyGroup g).slot p).promote := by
  rw [keyGroup_promoteKeys]
  cases p <;> rfl

theorem KeySlot.promote_eq (k : KeySlot) : k.promote = if k.pending = none then k else ⟨k.pending, none⟩ := by
  unfold KeySlot.promote
  cases h : k.pending <;> simp

theorem promoteKeys_promotes (s : State) :
    ∃ keys, s.promoteKeys = { s with keys := keys } ∧ keys.length = s.keys.length ∧
      ∀ (g : Nat) (k k' : KeyGroup), s.keys[g]? = some k → keys[g]? = some k' →
        k'.inFlight = k.inFlight ∧ k'.next = k.next ∧
        ∀ p, ((k.slot p).pending ≠ none → s.parityInUse g p = false → k'.slot p = ⟨(k.slot p).pending, none⟩) ∧
          (((k.slot p).pending = none ∨ s.parityInUse g p = true) → k'.slot p = k.slot p) := by
  refine ⟨_, rfl, length_promoteFrom .., fun g k k' hk hk' => ?_⟩
  replace hk := keyGroup_of_getElem? hk
  replace hk' : s.promoteKeys.keyGroup g = k' := keyGroup_of_getElem? hk'
  have hgroup := keyGroup_promoteKeys s g
  rw [hk, hk'] at hgroup
  refine ⟨by rw [hgroup]; rfl, by rw [hgroup]; rfl, fun p => ?_⟩
  have hslot := slot_promoteKeys s g p
  rw [hk, hk', KeySlot.promote_eq] at hslot
  refine ⟨fun hpending huse => ?_, fun h => ?_⟩
  · simpa [hpending, huse] using hslot
  · rcases h with h | h <;> simpa [h] using hslot

/-! ## The release of an engine (R71 to R73) -/

theorem holders_eq_nil_iff (s : State) (e : EngineId) : s.holders e = [] ↔ ∀ o, (s.output o).engine ≠ some e := by
  have hall : ∀ o : Screen, o ∈ allScreens := by decide
  simp [State.holders, hall]

theorem releaseIfUnheld_held {s : State} {e : EngineId} (h : ∃ o, (s.output o).engine = some e) :
    s.releaseIfUnheld e = (s, []) := by
  have hheld : (s.holders e).isEmpty = false := by
    rw [Bool.eq_false_iff, ne_eq, List.isEmpty_iff, holders_eq_nil_iff]
    simpa using h
  simp [State.releaseIfUnheld, hheld]

theorem releaseIfUnheld_unheld {s : State} {e : EngineId} (h : ∀ o, (s.output o).engine ≠ some e) :
    s.releaseIfUnheld e = ((s.freeEngine e).1.promoteKeys, (s.freeEngine e).2) := by
  simp [State.releaseIfUnheld, (holders_eq_nil_iff s e).2 h]

/-- What an engine becomes that no output claims any more while nothing waits (R72, R73). -/
def Engine.freed (idle : Option Nat) : Engine → Engine
  | .active .. => .ready idle
  | .warming _ d => .warming none d
  | x => x

/-- What an engine becomes that is bound to a service at once (R71, R72). -/
def Engine.rebound (n now : Nat) : Engine → Engine
  | .off => .off
  | .warming _ d => .warming (some n) d
  | _ => .active n none (some (now + 500))

theorem Three.set_comm (f : Three α) (u v : α) {d e : EngineId} (h : d ≠ e) :
    (f.set u d).set v e = (f.set v e).set u d := by
  fin_cases d <;> fin_cases e <;> first | rfl | exact absurd rfl h

theorem Three.set_set (f : Three α) (u v : α) (e : EngineId) : (f.set u e).set v e = f.set v e := by
  fin_cases e <;> rfl

theorem Engine.bound_freed (idle : Option Nat) (x : Engine) : (x.freed idle).bound = none := by
  cases x <;> rfl

theorem Engine.freed_off {idle : Option Nat} {x : Engine} (h : x ≠ .off) : x.freed idle ≠ .off := by
  cases x <;> simp_all [Engine.freed]

theorem Engine.bound_rebound {n now : Nat} {x : Engine} (h : x ≠ .off) : (x.rebound n now).bound = some n := by
  cases x <;> simp_all [Engine.rebound, Engine.bound]

theorem Engine.rebound_of_not_warming {n now : Nat} {x : Engine} (hon : x ≠ .off)
    (hx : ∀ target d, x ≠ .warming target d) : x.rebound n now = .active n none (some (now + 500)) := by
  cases x with
  | off => exact absurd rfl hon
  | warming target d => exact absurd rfl (hx target d)
  | _ => rfl

/-- An engine freed and bound at once is as one that was bound at once. -/
theorem Engine.rebound_freed (n now : Nat) (idle : Option Nat) (x : Engine) :
    (x.freed idle).rebound n now = x.rebound n now := by
  cases x <;> rfl

theorem engine_setEngine_same (s : State) (e : EngineId) (x : Engine) : (s.setEngine e x).engine e = x := by
  simp [State.engine, State.setEngine]

theorem engine_setEngine_other (s : State) {d e : EngineId} (x : Engine) (h : d ≠ e) :
    (s.setEngine e x).engine d = s.engine d := by
  simp [State.engine, State.setEngine, Three.get_set_other _ _ h]

theorem setEngine_self {s : State} {e : EngineId} {x : Engine} (h : s.engine e = x) : s.setEngine e x = s := by
  simp only [← h, State.setEngine, State.onPool, engines_set_engine]

/-- An engine bound to a service that none had is the one bound to it. -/
theorem boundEngine_of_set {s s' : State} {e : EngineId} {x : Engine} {n : Nat}
    (hs : s'.pool.engines = s.pool.engines.set x e) (hn : ∀ d, (s.engine d).bound ≠ some n) (hx : x.bound = some n) :
    s'.boundEngine n = some e := by
  refine boundEngine_eq_some_iff.2 ⟨?_, fun d hd => ?_⟩ <;> rw [State.engine, hs]
  · rw [Three.get_set_same, hx]
  · rw [Three.get_set_other _ _ (Fin.ne_of_lt hd)]
    exact hn d

theorem rebind_eq (e : EngineId) (n : Nat) (s : State) :
    s.rebind e n = s.setEngine e ((s.engine e).rebound n s.time.now) := by
  unfold State.rebind
  cases hx : s.engine e with
  | off => exact (setEngine_self hx).symm
  | _ => rfl

theorem freeEngine_idle {s : State} (e : EngineId) (hw : s.pool.wait = []) :
    s.freeEngine e = (s.setEngine e ((s.engine e).freed s.idleDeadline), []) := by
  unfold State.freeEngine
  rw [hw]
  cases hx : s.engine e with
  | active => rfl
  | warming => rfl
  | _ => simp only [Engine.freed, setEngine_self hx]

theorem freeEngine_serves {s : State} {e : EngineId} {w : WaitEntry} {ws : List WaitEntry}
    (hw : s.pool.wait = w :: ws)
    (hx : (∃ n last noKeyAt, s.engine e = .active n last noKeyAt) ∨ ∃ target d, s.engine e = .warming target d) :
    s.freeEngine e = (((s.onWait fun _ => ws).rebind e w.service).holdAll e w.outputs, w.outputs) := by
  have hengine : (s.onWait fun _ => ws).engine e = s.engine e := rfl
  unfold State.freeEngine State.rebind
  rw [hw]
  rcases hx with ⟨n, last, noKeyAt, hx⟩ | ⟨target, d, hx⟩ <;> simp only [hengine, hx]

/-! ## The deadlines of the engines (R63, R64, R73, R74) -/

section

variable {t : Nat} {e : EngineId} {s : State}

theorem reached_atInstant (d : Nat) : reached d (s.atInstant t) = decide (d ≤ max s.time.now t) := rfl

theorem exec_warmUpEnd {target : Option Nat} {d : Nat} (hp : s.power ≠ .off) (h : s.engine e = .warming target d) :
    exec (.warmUpEnd t e) s = .next (if d ≤ max s.time.now t then
      ((s.atInstant t).endWarmUp e).1.promoteKeys.rerun ((s.atInstant t).endWarmUp e).2 else s.atInstant t) := by
  rw [show exec (.warmUpEnd t e) s = execWarmUpEnd t e s from rfl, execWarmUpEnd, occurs_powered hp]
  simp only [show (s.atInstant t).engine e = .warming target d from h, reached_atInstant, decide_eq_true_eq]

theorem endWarmUp_target {n d : Nat} (h : s.engine e = .warming (some n) d) :
    s.endWarmUp e = (s.activate e n, s.holders e) := by
  simp only [State.endWarmUp, h]

theorem endWarmUp_idle {d : Nat} (h : s.engine e = .warming none d) (hw : s.pool.wait = []) :
    s.endWarmUp e = (s.setEngine e (.ready s.idleDeadline), []) := by
  simp only [State.endWarmUp, h, hw]

theorem endWarmUp_serves {d : Nat} {w : WaitEntry} {ws : List WaitEntry} (h : s.engine e = .warming none d)
    (hw : s.pool.wait = w :: ws) :
    s.endWarmUp e = (((s.onWait fun _ => ws).activate e w.service).holdAll e w.outputs, w.outputs) := by
  simp only [State.endWarmUp, h, hw]

theorem exec_idleDeadline {d : Nat} (hp : s.power ≠ .off) (h : s.engine e = .ready (some d)) :
    exec (.idleDeadline t e) s = .next (if d ≤ max s.time.now t then (s.atInstant t).setEngine e .off
      else s.atInstant t) := by
  rw [show exec (.idleDeadline t e) s = execIdleDeadline t e s from rfl, execIdleDeadline, occurs_powered hp]
  simp only [show (s.atInstant t).engine e = .ready (some d) from h, due, reached_atInstant, decide_eq_true_eq]

theorem exec_noKeyDeadline {n d : Nat} {last : Option Parity} (hp : s.power ≠ .off)
    (h : s.engine e = .active n last (some d)) :
    exec (.noKeyDeadline t e) s = .next (if d ≤ max s.time.now t then
      (((s.atInstant t).setEngine e (.active n last none)).raise .key).rerun (s.routedTo n) else s.atInstant t) := by
  rw [show exec (.noKeyDeadline t e) s = execNoKeyDeadline t e s from rfl, execNoKeyDeadline, occurs_powered hp]
  simp only [show (s.atInstant t).engine e = .active n last (some d) from h, reached_atInstant, decide_eq_true_eq]
  rfl

end

end Sys2Proof.Machine
end

section
/-! PROOF. The turns of an output that has left an engine: what they leave as it was, and what a run and a release come to
(R68 to R73, R81 to R83; log 58; O17). -/

namespace Sys2Proof.Machine

/-! ## The judgement of a verdict reads neither the Engine Pool nor the cell keys (R81, R82) -/

/-- The state with other engines, keys and outputs. -/
def State.repool (pool : Pool) (keys : List KeyGroup) (router : Router) (s : State) : State :=
  { s with pool := pool, keys := keys, router := router }

section

variable (pool : Pool) (keys : List KeyGroup) (router : Router) (s : State)

theorem beginClose_repool (n : Nat) (cause : CloseCause) :
    (s.repool pool keys router).beginClose n cause = (s.beginClose n cause).repool pool keys router := by
  unfold State.beginClose
  rw [show (s.repool pool keys router).session n = s.session n from rfl]
  split
  · split <;> rfl
  · rfl

theorem closeOldest_repool (cause : CloseCause) (p : Session → Bool) :
    (s.repool pool keys router).closeOldest cause p = (s.closeOldest cause p).repool pool keys router := by
  unfold State.closeOldest
  rw [show (s.repool pool keys router).cur = s.cur from rfl]
  split
  · exact beginClose_repool ..
  · rfl

theorem occupancyRose_repool :
    (s.repool pool keys router).occupancyRose = s.occupancyRose.repool pool keys router := by
  unfold State.occupancyRose
  rw [apply_ite (State.repool pool keys router)]
  rfl

theorem meterChanged_repool :
    (s.repool pool keys router).meterChanged = s.meterChanged.repool pool keys router := by
  unfold State.meterChanged
  rw [apply_ite (State.repool pool keys router)]
  rfl

theorem openSession_repool (n : Nat) (time : PTime) :
    (s.repool pool keys router).openSession n time = (s.openSession n time).repool pool keys router := by
  simp only [State.openSession, ← meterChanged_repool, ← occupancyRose_repool]
  rfl

theorem askMeter_repool (n : Nat) (t : MeterTerms) (time : PTime) :
    (s.repool pool keys router).askMeter n t time =
      ((s.askMeter n t time).1.repool pool keys router, (s.askMeter n t time).2) := by
  simp only [State.askMeter, openSession_repool, closeOldest_repool,
    show (s.repool pool keys router).session n = s.session n from rfl,
    show (s.repool pool keys router).cur = s.cur from rfl,
    show (s.repool pool keys router).closingWith .eviction = s.closingWith .eviction from rfl,
    show (s.repool pool keys router).freeSlots = s.freeSlots from rfl,
    show (s.repool pool keys router).openingFits n t = s.openingFits n t from rfl]
  repeat' split
  all_goals rfl

theorem access_repool (n : Nat) (r : Service) :
    (s.repool pool keys router).access n r = ((s.access n r).1.repool pool keys router, (s.access n r).2) := by
  cases hk : r.kind with
  | free => simp only [State.access, hk]
  | tier tier =>
    simp only [State.access, hk]
    rfl
  | film =>
    simp only [State.access, hk, show (s.repool pool keys router).titleOf n = s.titleOf n from rfl]
    split <;> rfl
  | metered terms =>
    simp only [State.access, hk, askMeter_repool, show (s.repool pool keys router).time = s.time from rfl,
      show (s.repool pool keys router).occupied = s.occupied from rfl]
    split
    · split <;> rfl
    · rfl

theorem judge_repool {o : Screen} (hpresent : (router.outputs.get o).present = (s.output o).present)
    (hroute : (router.outputs.get o).route = (s.output o).route) :
    (s.repool pool keys router).judge o = ((s.judge o).1.repool pool keys router, (s.judge o).2) := by
  unfold State.judge
  simp only [show (s.repool pool keys router).output o = router.outputs.get o from rfl, hpresent, hroute,
    show (s.repool pool keys router).service = s.service from rfl,
    show (s.repool pool keys router).cur = s.cur from rfl,
    show (s.repool pool keys router).noSignal = s.noSignal from rfl,
    show (s.repool pool keys router).titleOf = s.titleOf from rfl,
    show (s.repool pool keys router).locked = s.locked from rfl, access_repool]
  repeat' split
  all_goals rfl

end

theorem judge_passed_route {o : Screen} {s s' : State} {n : Nat} {scrambled : Bool} {basis : Basis}
    (h : s.judge o = (s', .passed n scrambled basis)) : (s.output o).route = some n := by
  have hpassed {m : Nat} {r : Service} {a : Access} (ha : a.ending m r = .passed n scrambled basis) : m = n := by
    cases a <;> cases ha
    rfl
  cases hroute : (s.output o).route with
  | none =>
    simp only [State.judge, hroute] at h
    split at h <;> cases h
  | some m =>
    simp only [State.judge, hroute] at h
    repeat' split at h
    all_goals first | cases h | exact congrArg some (hpassed (Prod.mk.inj h).2)

/-! ## What the turns of one output leave as it was -/

/-- `s'` is `s` but for the Engine Pool, the cell keys and what verdicts make of output `o`. -/
structure Repooled (o : Screen) (s s' : State) : Prop where
  rest : s' = s.repool s'.pool s'.keys s'.router
  same : (s.output o).sameRoute (s'.output o)
  others : ∀ p ≠ o, s'.output p = s.output p

namespace Repooled

variable {o : Screen} {a s s' : State}

theorem trans (h : Repooled o a s) (k : Repooled o s s') : Repooled o a s' where
  rest := k.rest.trans (by rw [h.rest]; rfl)
  same := h.same.trans k.same
  others p hp := (k.others p hp).trans (h.others p hp)

theorem time (h : Repooled o s s') : s'.time = s.time := (congrArg State.time h.rest :)

/-- The run of `o` comes to the engine stage as it did. -/
theorem judge (h : Repooled o s s') {x : Ending} (hj : s.judge o = (s, x)) : s'.judge o = (s', x) := by
  obtain ⟨hroute, -, hpresent, -⟩ := h.same
  calc s'.judge o = (s.repool s'.pool s'.keys s'.router).judge o := congrArg (State.judge o) h.rest
    _ = ((s.judge o).1.repool s'.pool s'.keys s'.router, (s.judge o).2) := judge_repool _ _ _ s hpresent hroute
    _ = (s.repool s'.pool s'.keys s'.router, x) := by rw [hj]
    _ = (s', x) := by rw [← h.rest]

theorem onPool (f : Pool → Pool) (s : State) : Repooled o s (s.onPool f) := ⟨rfl, .refl _, fun _ _ => rfl⟩

theorem promoteKeys (s : State) : Repooled o s s.promoteKeys := ⟨rfl, .refl _, fun _ _ => rfl⟩

theorem onOutput {f : Output → Output} (hf : (s.output o).sameRoute (f (s.output o))) :
    Repooled o s (s.onOutput o f) where
  rest := rfl
  same := by rwa [State.output_onOutput_same]
  others _ hp := State.output_onOutput_other s f hp

theorem holding (e : EngineId) (x : Engine) (s : State) : Repooled o s (s.holding o e x) :=
  (Repooled.onPool (fun p => ⟨p.engines.set x e, unwait o p.wait⟩) s).trans (.onOutput (Output.sameRoute_hold e _))

/-- No output but `o` comes to hold an engine. -/
theorem unheld (h : Repooled o s s') {e : EngineId} (ho : (s'.output o).engine ≠ some e)
    (hothers : ∀ p ≠ o, (s.output p).engine ≠ some e) : ∀ p, (s'.output p).engine ≠ some e := by
  intro p
  by_cases hp : p = o
  · rwa [hp]
  · rw [h.others p hp]
    exact hothers p hp

end Repooled

/-! ## An output with no claim, and what its run can come to -/

/-- Output `o`, with no claim, asks for scrambled service `n`, which has no engine, while nothing waits; engine `e` is
not OFF, and no output holds it. -/
structure Adrift (o : Screen) (e : EngineId) (n : Nat) (basis : Basis) (s : State) : Prop where
  judged : s.judge o = (s, .passed n true basis)
  on : s.engine e ≠ .off
  unheld : ∀ p, (s.output p).engine ≠ some e
  unclaimed : (s.output o).engine = none
  unserved : ∀ d, (s.engine d).bound ≠ some n
  idle : s.pool.wait = []

/-- From `s` to `s'` output `o` came to hold engine `e`, the engines became `engines`, and nothing waits. -/
structure Served (o : Screen) (e : EngineId) (engines : Three Engine) (s s' : State) : Prop extends
    Repooled o s s' where
  pool : s'.pool = ⟨engines, []⟩
  holds : (s'.output o).engine = some e

/-- From `s` to `s'` output `o` came to wait for service `n`, alone, and holds no engine. -/
structure Waiting (o : Screen) (n : Nat) (s s' : State) : Prop extends Repooled o s s' where
  pool : s'.pool = ⟨s.pool.engines, [⟨n, [o]⟩]⟩
  unclaimed : (s'.output o).engine = none

theorem Output.endEngine_engine (b : Basis) (x : Output) (a : EngineAnswer) : (x.endEngine b a).engine = x.engine := by
  unfold Output.endEngine
  split <;> rfl

theorem onWait_unwait_idle (o : Screen) {s : State} (h : s.pool.wait = []) : s.onWait (unwait o) = s := by
  rw [State.onWait, State.onPool, h, show unwait o [] = s.pool.wait from h.symm]

/-- A run that comes to the engine stage with no claim on another service. -/
theorem verdict_obtains {o : Screen} {n : Nat} {basis : Basis} {s : State}
    (hj : s.judge o = (s, .passed n true basis))
    (hc : s.claimOf o = some n ∨ (s.output o).engine = none) (hwait : s.pool.wait = []) :
    ∃ answer, s.verdict o =
      ((s.obtainEngine o n).promoteKeys.onOutput o fun x => x.endEngine basis answer, []) := by
  have hended : s.endOtherClaim o n = (s, []) := by
    unfold State.endOtherClaim
    split
    case isTrue => rfl
    case isFalse hother =>
      have hnone := hc.resolve_left hother
      simp only [State.endClaim, hnone, onWait_unwait_idle o hwait]
  refine ⟨(s.obtainEngine o n).promoteKeys.engineAnswer o, ?_⟩
  simp only [State.verdict, hj, State.claim, hended]

/-- The run of an output that the cases of R69 give engine `e`. -/
theorem verdict_served {o : Screen} {e : EngineId} {n : Nat} {basis : Basis} {x : Engine} {s : State}
    (hj : s.judge o = (s, .passed n true basis))
    (hc : s.claimOf o = some n ∨ (s.output o).engine = none) (hwait : s.pool.wait = [])
    (hx : s.obtainEngine o n = s.holding o e x) :
    Served o e (s.pool.engines.set x e) s (s.verdict o).1 ∧ (s.verdict o).2 = [] := by
  obtain ⟨answer, hv⟩ := verdict_obtains hj hc hwait
  rw [hv, hx]
  have hran : Repooled o s ((s.holding o e x).promoteKeys.onOutput o fun y => y.endEngine basis answer) :=
    ((Repooled.holding e x s).trans (.promoteKeys _)).trans (.onOutput (Output.sameRoute_endEngine ..))
  refine ⟨⟨hran, ?_, ?_⟩, rfl⟩
  · show Pool.mk (s.pool.engines.set x e) (unwait o s.pool.wait) = _
    rw [hwait]
    rfl
  · rw [State.output_onOutput_same, Output.endEngine_engine]
    simp only [State.output, State.promoteKeys, State.onKeys_router, State.holding, Four.get_set_same, Output.hold]

/-! ## One turn: the release of the engine left, the run of the output -/

/-- The state after the release of an engine that no output holds, while nothing waits (R72, R73). -/
def State.released (e : EngineId) (s : State) : State :=
  (s.setEngine e ((s.engine e).freed s.idleDeadline)).promoteKeys

theorem engine_released_same (e : EngineId) (s : State) : (s.released e).engine e = (s.engine e).freed s.idleDeadline :=
  engine_setEngine_same ..

theorem engine_released_other {d e : EngineId} (s : State) (h : d ≠ e) : (s.released e).engine d = s.engine d :=
  engine_setEngine_other _ _ h

theorem repooled_released (o : Screen) (e : EngineId) (s : State) : Repooled o s (s.released e) :=
  (Repooled.onPool _ s).trans (.promoteKeys _)

theorem take_release {s : State} {e : EngineId} (hunheld : ∀ p, (s.output p).engine ≠ some e)
    (hwait : s.pool.wait = []) : s.take (.release e) = (s.released e, []) := by
  rw [State.take, releaseIfUnheld_unheld hunheld, freeEngine_idle e hwait]
  rfl

namespace Adrift

variable {o : Screen} {e : EngineId} {n : Nat} {basis : Basis} {s : State}

theorem release (h : Adrift o e n basis s) : Adrift o e n basis (s.released e) where
  judged := (repooled_released o e s).judge h.judged
  on := by
    rw [engine_released_same]
    exact Engine.freed_off h.on
  unheld := h.unheld
  unclaimed := h.unclaimed
  unserved d := by
    by_cases hd : d = e
    · rw [hd, engine_released_same, Engine.bound_freed]
      exact fun h => nomatch h
    · rw [engine_released_other s hd]
      exact h.unserved d
  idle := h.idle

/-- With an engine unbound, the engine left serves the new service where it follows the output. -/
theorem run_follows (h : Adrift o e n basis s) (hfree : ∃ d, (s.engine d).bound = none) (hf : s.follows e = true) :
    Served o e (s.pool.engines.set ((s.engine e).rebound n s.time.now) e) s (s.take (.run o (some e))).1 ∧
      (s.take (.run o (some e))).2 = [] := by
  have hrefit : s.followOn o (some e) = (s.setEngine e ((s.engine e).rebound n s.time.now)).promoteKeys := by
    have hsome : (s.engineWhere fun x => x.bound.isNone).isSome = true := by
      rw [Option.isSome_iff_ne_none, ne_eq, engineWhere_eq_none_iff]
      obtain ⟨d, hd⟩ := hfree
      exact fun hnone => by simpa [hd] using hnone d
    simp only [State.followOn, h.judged, Ending.scrambled, State.refit, (holders_eq_nil_iff s e).2 h.unheld,
      boundEngine_eq_none_iff.2 h.unserved, hsome, hf, rebind_eq]
    rfl
  have hv : Repooled o s (s.setEngine e ((s.engine e).rebound n s.time.now)).promoteKeys :=
    (Repooled.onPool _ s).trans (.promoteKeys _)
  have hbound : (s.setEngine e ((s.engine e).rebound n s.time.now)).promoteKeys.boundEngine n = some e :=
    boundEngine_of_set rfl h.unserved (Engine.bound_rebound h.on)
  obtain ⟨hserved, hdone⟩ := verdict_served (hv.judge h.judged) (.inr h.unclaimed) h.idle (obtainEngine_bound hbound)
  rw [State.take, hrefit]
  refine ⟨⟨hv.trans hserved.toRepooled, hserved.pool.trans ?_, hserved.holds⟩, hdone⟩
  rw [engines_set_engine]
  rfl

/-- Where the engine left does not follow the output, or every engine is bound, the run is as that of any output. -/
theorem run_stays (h : Adrift o e n basis s) (hf : (∀ d, (s.engine d).bound ≠ none) ∨ s.follows e = false) :
    s.take (.run o (some e)) = s.verdict o := by
  have hrefit : s.refit e n = s := by
    unfold State.refit
    rcases hf with hfull | hf
    · have hnone : (s.engineWhere fun x => x.bound.isNone) = none :=
        engineWhere_eq_none_iff.2 fun d => by simpa [Option.isSome_iff_ne_none] using hfull d
      simp [hnone]
    · simp [hf]
  simp only [State.take, State.followOn, h.judged, Ending.scrambled, hrefit]

/-- The run that the cases of R69 give another engine than the one left. -/
theorem run_finds (h : Adrift o e n basis s) (hf : s.follows e = false) {d : EngineId} {x : Engine}
    (hx : s.obtainEngine o n = s.holding o d x) :
    Served o d (s.pool.engines.set x d) s (s.take (.run o (some e))).1 ∧ (s.take (.run o (some e))).2 = [] := by
  rw [h.run_stays (.inr hf)]
  exact verdict_served h.judged (.inr h.unclaimed) h.idle hx

/-- With every engine bound the output waits, and no other does. -/
theorem run_waits (h : Adrift o e n basis s) (hfull : ∀ d, (s.engine d).bound ≠ none) :
    Waiting o n s (s.take (.run o (some e))).1 ∧ (s.take (.run o (some e))).2 = [] := by
  have hnone {p : Engine → Bool} (hp : ∀ x, p x = true → x.bound = none) : s.engineWhere p = none :=
    engineWhere_eq_none_iff.2 fun d => Bool.eq_false_iff.2 fun hd => hfull d (hp _ hd)
  obtain ⟨answer, hv⟩ := verdict_obtains h.judged (.inr h.unclaimed) h.idle
  rw [h.run_stays (.inl hfull), hv, obtainEngine_wait (boundEngine_eq_none_iff.2 h.unserved)
    (hnone fun _ => Engine.bound_isReady) (hnone fun _ => Engine.bound_isFreeWarming)
    (hnone fun _ => Engine.bound_isOff), h.idle]
  have hran : Repooled o s ((s.onWait (joinWait o n)).promoteKeys.onOutput o fun y => y.endEngine basis answer) :=
    ((Repooled.onPool _ s).trans (.promoteKeys _)).trans (.onOutput (Output.sameRoute_endEngine ..))
  rw [State.onWait, State.onPool, h.idle] at hran
  refine ⟨⟨hran, rfl, ?_⟩, rfl⟩
  rw [State.output_onOutput_same, Output.endEngine_engine]
  exact h.unclaimed

/-- The engine left, released after the run, is handed to the output, which alone waits (R71). -/
theorem release_hands (h : Adrift o e n basis s) (hbound : (s.engine e).bound ≠ none) {v : State}
    (hv : Waiting o n s v) :
    ∃ w, v.take (.release e) = (w, [o]) ∧
      Served o e (s.pool.engines.set ((s.engine e).rebound n s.time.now) e) s w := by
  have hengine : v.engine e = s.engine e := by rw [State.engine, hv.pool]; rfl
  have hunheld := hv.toRepooled.unheld (e := e) (by simp [hv.unclaimed]) fun p _ => h.unheld p
  have hsort : (∃ m last noKeyAt, v.engine e = .active m last noKeyAt) ∨ ∃ target d, v.engine e = .warming target d := by
    rw [hengine]
    cases hx : s.engine e <;> simp_all [Engine.bound]
  refine ⟨_, by rw [State.take, releaseIfUnheld_unheld hunheld, freeEngine_serves (by rw [hv.pool]) hsort], ?_⟩
  rw [rebind_eq, show (v.onWait fun _ => []).time = s.time from hv.time,
    show (v.onWait fun _ => []).engine e = s.engine e from hengine]
  refine ⟨((hv.toRepooled.trans ((Repooled.onPool _ v).trans (.onPool _ _))).trans
    (.onOutput (Output.sameRoute_hold e _))).trans (.promoteKeys _), ?_, ?_⟩
  · show Pool.mk (v.pool.engines.set _ e) [] = _
    rw [hv.pool]
  · show ((State.onOutput o (.hold e) _).output o).engine = some e
    rw [State.output_onOutput_same]
    rfl

/-- The run of an output that a freed engine was handed to finds it bound to its service. -/
theorem run_again (h : Adrift o e n basis s) {x : Engine} {w : State} (hx : x.bound = some n)
    (hw : Served o e (s.pool.engines.set x e) s w) :
    Served o e (s.pool.engines.set x e) s (w.take (.run o none)).1 ∧ (w.take (.run o none)).2 = [] := by
  have hbound : w.boundEngine n = some e := boundEngine_of_set (by rw [hw.pool]) h.unserved hx
  have hclaim : w.claimOf o = some n := by
    rw [State.claimOf, hw.holds]
    exact (boundEngine_eq_some_iff.1 hbound).1
  obtain ⟨hserved, hdone⟩ := verdict_served (hw.judge h.judged) (.inl hclaim) (by rw [hw.pool])
    (obtainEngine_bound hbound)
  refine ⟨⟨hw.toRepooled.trans hserved.toRepooled, hserved.pool.trans ?_, hserved.holds⟩, hdone⟩
  rw [engines_set_engine, hw.pool]

end Adrift

end Sys2Proof.Machine
end

section
/-! PROOF. An output that alone holds an engine moves to a service with no engine: the two orders of its turns end alike,
beside the release, the keys and the deadlines of the engines (R55, R57, R63, R64, R69, R71 to R74, R91; log 58; O17). -/

namespace Sys2Proof.Machine

/-! ## What R69 finds beside the engine left -/

section

variable {o : Screen} {e : EngineId} {n : Nat} {s : State}

theorem follows_of_warming {target : Option Nat} {d : Nat} (h : s.engine e = .warming target d) :
    s.follows e = s.foundFree e := by
  rw [State.follows, h]

theorem follows_of_not_warming (h : ∀ target d, s.engine e ≠ .warming target d) : s.follows e = true := by
  unfold State.follows
  split
  case h_1 hx => exact absurd hx (h _ _)
  case h_2 => rfl

theorem foundFree_congr {s s' : State} (hsame : ∀ d ≠ e, s'.engine d = s.engine d)
    (he : (s'.engine e).isReady = (s.engine e).isReady) : s'.foundFree e = s.foundFree e := by
  have hready (d : EngineId) : (s'.engine d).isReady = (s.engine d).isReady := by
    by_cases hd : d = e
    · rw [hd, he]
    · rw [hsame d hd]
  have hfree (d : EngineId) :
      (decide (d < e) && (s'.engine d).isFreeWarming) = (decide (d < e) && (s.engine d).isFreeWarming) := by
    by_cases hd : d = e
    · simp [hd]
    · rw [hsame d hd]
  simp only [State.foundFree, State.engineWhere, hready, hfree]

/-- Whether the engine left follows the output does not depend on its release. -/
theorem follows_released (s : State) (e : EngineId) : (s.released e).follows e = s.follows e := by
  have he := engine_released_same e s
  unfold State.follows
  rw [he]
  cases hx : s.engine e with
  | warming target d => exact foundFree_congr (fun d hd => engine_released_other s hd) (by rw [he, hx]; rfl)
  | _ => rfl

/-- A WARMING engine is found free where none is READY, and none WARMING with no target has a lower number. -/
theorem foundFree_iff (s : State) (e : EngineId) :
    s.foundFree e = true ↔
      (∀ d, ¬ ∃ deadline, s.engine d = .ready deadline) ∧ ∀ d < e, ¬ ∃ deadline, s.engine d = .warming none deadline := by
  have hall : ∀ d : EngineId, d ∈ allEngines := by decide
  simp only [State.foundFree, Bool.and_eq_true, Option.isNone_iff_eq_none, engineWhere_eq_none_iff,
    ← Engine.isReady_iff, ← Engine.isFreeWarming_iff]
  simp [hall]

/-- Engine `d`, made `x`, is what R69 finds for service `n` before the WARMING engine `e`: the lowest READY one, or,
with none READY, the lowest WARMING one with no target, of a lower number than `e`. -/
def FindsBefore (e : EngineId) (n : Nat) (d : EngineId) (x : Engine) (s : State) : Prop :=
  s.engineWhere Engine.isReady = some d ∧ x = .active n none (some (s.time.now + 500)) ∨
    s.engineWhere Engine.isReady = none ∧ d < e ∧ s.engineWhere Engine.isFreeWarming = some d ∧
      ∃ l, s.engine d = .warming none l ∧ x = .warming (some n) l

theorem FindsBefore.ne {d : EngineId} {x : Engine} (h : FindsBefore e n d x s)
    (he : (s.engine e).isReady = false) : d ≠ e := by
  rintro rfl
  rcases h with ⟨hready, -⟩ | ⟨-, hlt, -⟩
  · simpa [he] using engineWhere_some hready
  · exact absurd hlt (lt_irrefl d)

theorem FindsBefore.foundFree {d : EngineId} {x : Engine} (h : FindsBefore e n d x s) : s.foundFree e = false := by
  rcases h with ⟨hready, -⟩ | ⟨-, hlt, hfree, -⟩
  · simp [State.foundFree, hready]
  · have hany : (allEngines.any fun c => decide (c < e) && (s.engine c).isFreeWarming) = true :=
      List.any_eq_true.2 ⟨d, by fin_cases d <;> decide, by simp [hlt, engineWhere_some hfree]⟩
    simp [State.foundFree, hany]

theorem FindsBefore.obtainEngine {d : EngineId} {x : Engine} (h : FindsBefore e n d x s)
    (hn : ∀ c, (s.engine c).bound ≠ some n) : s.obtainEngine o n = s.holding o d x := by
  replace hn := boundEngine_eq_none_iff.2 hn
  rcases h with ⟨hready, rfl⟩ | ⟨hready, -, hfree, l, hd, rfl⟩
  · exact obtainEngine_ready hn hready
  · exact obtainEngine_freeWarming hn hready hfree hd

/-- What R69 finds before a WARMING engine does not depend on that engine. -/
theorem FindsBefore.congr {d : EngineId} {x : Engine} {s' : State} (h : FindsBefore e n d x s)
    (hsame : ∀ c ≠ e, s'.engine c = s.engine c) (htime : s'.time = s.time) (he : (s.engine e).isReady = false)
    (he' : (s'.engine e).isReady = false) : FindsBefore e n d x s' := by
  have hne := h.ne he
  have hready (c : EngineId) : (s'.engine c).isReady = (s.engine c).isReady := by
    by_cases hc : c = e
    · rw [hc, he, he']
    · rw [hsame c hc]
  rcases h with ⟨hd, hx⟩ | ⟨hnone, hlt, hfree, hx⟩
  · left
    simpa only [State.engineWhere, hready, htime] using ⟨hd, hx⟩
  · refine .inr ⟨by simpa only [State.engineWhere, hready] using hnone, hlt, engineWhere_eq_some_iff.2 ?_, ?_⟩
    · obtain ⟨hdfree, hlow⟩ := engineWhere_eq_some_iff.1 hfree
      refine ⟨by rwa [hsame d hne], fun c hc => ?_⟩
      rw [hsame c (Fin.ne_of_lt (hc.trans hlt))]
      exact hlow c hc
    · rwa [hsame d hne]

theorem findsBefore_of {n : Nat} {d : EngineId} {x : Engine}
    (h : (∃ i, s.engine d = .ready i) ∧ (∀ c < d, ¬ ∃ i, s.engine c = .ready i) ∧
        x = .active n none (some (s.time.now + 500)) ∨
      (∀ c, ¬ ∃ i, s.engine c = .ready i) ∧ d < e ∧ (∀ c < d, ¬ ∃ l, s.engine c = .warming none l) ∧
        ∃ l, s.engine d = .warming none l ∧ x = .warming (some n) l) : FindsBefore e n d x s := by
  simp only [← Engine.isReady_iff, ← Engine.isFreeWarming_iff, Bool.not_eq_true] at h
  simp only [FindsBefore, engineWhere_eq_some_iff, engineWhere_eq_none_iff]
  rcases h with ⟨hready, hlow, hx⟩ | ⟨hnone, hlt, hlow, l, hd, hx⟩
  · exact .inl ⟨⟨hready, hlow⟩, hx⟩
  · exact .inr ⟨hnone, hlt, ⟨by rw [hd]; rfl, hlow⟩, l, hd, hx⟩

end

/-! ## The two orders of the turns (R72, R91) -/

theorem takeTurns_cons (s : State) (k : Nat) (x : Turn) (xs : List Turn) :
    s.takeTurns (k + 1) (x :: xs) = (s.take x).1.takeTurns k (xs ++ (s.take x).2.map .again) := rfl

theorem takeTurns_two {s : State} {x y : Turn} (hx : (s.take x).2 = []) (hy : ((s.take x).1.take y).2 = []) :
    s.takeTurns 32 [x, y] = ((s.take x).1.take y).1 := by
  rw [takeTurns_cons, hx, List.map_nil, List.append_nil, takeTurns_cons, hy]
  rfl

namespace Adrift

variable {o : Screen} {e : EngineId} {n : Nat} {basis : Basis} {s : State}

/-- The engine left follows the output where its release comes first. -/
theorem releaseFirst_follows (h : Adrift o e n basis s) (hf : s.follows e = true) :
    Served o e (s.pool.engines.set ((s.engine e).rebound n s.time.now) e) s
      (s.takeTurns 32 [.release e, .run o (some e)]) := by
  have hrelease := take_release h.unheld h.idle
  have he := engine_released_same e s
  obtain ⟨hserved, hdone⟩ := h.release.run_follows ⟨e, by rw [he, Engine.bound_freed]⟩
    ((follows_released s e).trans hf)
  rw [takeTurns_two (by rw [hrelease]) (by rw [hrelease]; exact hdone), hrelease]
  refine ⟨(repooled_released o e s).trans hserved.toRepooled, hserved.pool.trans ?_, hserved.holds⟩
  rw [he, Engine.rebound_freed]
  show Pool.mk ((s.pool.engines.set _ e).set _ e) [] = _
  rw [Three.set_set]
  rfl

/-- The same engine follows where the run comes first: at once, or, with every engine bound, by the wait list. -/
theorem runFirst_follows (h : Adrift o e n basis s) (hf : s.follows e = true) :
    Served o e (s.pool.engines.set ((s.engine e).rebound n s.time.now) e) s
      (s.takeTurns 32 [.run o (some e), .release e]) := by
  by_cases hfree : ∃ d, (s.engine d).bound = none
  · obtain ⟨hserved, hdone⟩ := h.run_follows hfree hf
    have hrelease : (s.take (.run o (some e))).1.take (.release e) = ((s.take (.run o (some e))).1, []) :=
      releaseIfUnheld_held ⟨o, hserved.holds⟩
    rwa [takeTurns_two hdone (by rw [hrelease]), hrelease]
  · have hfull (d : EngineId) : (s.engine d).bound ≠ none := fun hd => hfree ⟨d, hd⟩
    obtain ⟨hwaiting, hdone⟩ := h.run_waits hfull
    obtain ⟨w, hrelease, hhanded⟩ := h.release_hands (hfull e) hwaiting
    obtain ⟨hserved, hagain⟩ := h.run_again (Engine.bound_rebound h.on) hhanded
    rw [takeTurns_cons, hdone]
    simp only [List.map_nil, List.append_nil]
    rw [takeTurns_cons, hrelease]
    show Served o e _ s (w.takeTurns 30 [.run o none])
    rw [takeTurns_cons, hagain]
    exact hserved

theorem follows (h : Adrift o e n basis s) (hf : s.follows e = true) :
    ∀ turns ∈ [[Turn.release e, .run o (some e)], [.run o (some e), .release e]],
      Served o e (s.pool.engines.set ((s.engine e).rebound n s.time.now) e) s (s.takeTurns 32 turns) := by
  simpa using ⟨h.releaseFirst_follows hf, h.runFirst_follows hf⟩

/-! ## Another engine found first (R69, R73) -/

theorem releaseFirst_finds (h : Adrift o e n basis s) {target : Option Nat} {deadline : Nat}
    (he : s.engine e = .warming target deadline) {d : EngineId} {x : Engine} (hd : FindsBefore e n d x s) :
    Served o d ((s.pool.engines.set (.warming none deadline) e).set x d) s
      (s.takeTurns 32 [.release e, .run o (some e)]) := by
  have hrelease := take_release h.unheld h.idle
  have hfreed : (s.released e).engine e = .warming none deadline := by
    rw [engine_released_same, he]
    rfl
  have hfollows : (s.released e).follows e = false := by
    rw [follows_released, follows_of_warming he]
    exact hd.foundFree
  replace hd := hd.congr (fun c hc => engine_released_other s hc) rfl (by rw [he]; rfl) (by rw [hfreed]; rfl)
  obtain ⟨hserved, hdone⟩ := h.release.run_finds hfollows (hd.obtainEngine h.release.unserved)
  rw [takeTurns_two (by rw [hrelease]) (by rw [hrelease]; exact hdone), hrelease]
  refine ⟨(repooled_released o e s).trans hserved.toRepooled, hserved.pool.trans ?_, hserved.holds⟩
  show Pool.mk ((s.pool.engines.set ((s.engine e).freed _) e).set x d) [] = _
  rw [he]
  rfl

theorem runFirst_finds (h : Adrift o e n basis s) {target : Option Nat} {deadline : Nat}
    (he : s.engine e = .warming target deadline) {d : EngineId} {x : Engine} (hd : FindsBefore e n d x s) :
    Served o d ((s.pool.engines.set (.warming none deadline) e).set x d) s
      (s.takeTurns 32 [.run o (some e), .release e]) := by
  have hne : d ≠ e := hd.ne (by rw [he]; rfl)
  have hfollows : s.follows e = false := by
    rw [follows_of_warming he]
    exact hd.foundFree
  obtain ⟨hserved, hdone⟩ := h.run_finds hfollows (hd.obtainEngine h.unserved)
  have hunheld := hserved.toRepooled.unheld (e := e) (by simpa [hserved.holds] using hne) fun p _ => h.unheld p
  have hengine : (s.take (.run o (some e))).1.engine e = .warming target deadline := by
    rw [State.engine, hserved.pool, ← he]
    exact Three.get_set_other _ _ hne.symm
  have hrelease := take_release hunheld (by rw [hserved.pool])
  rw [takeTurns_two hdone (by rw [hrelease]), hrelease]
  refine ⟨hserved.toRepooled.trans (repooled_released o e _), ?_, hserved.holds⟩
  show Pool.mk ((s.take (.run o (some e))).1.pool.engines.set (Engine.freed _ _) e)
    (s.take (.run o (some e))).1.pool.wait = _
  rw [hengine, hserved.pool, Three.set_comm _ _ _ hne]
  rfl

theorem finds (h : Adrift o e n basis s) {target : Option Nat} {deadline : Nat}
    (he : s.engine e = .warming target deadline) {d : EngineId} {x : Engine} (hd : FindsBefore e n d x s) :
    ∀ turns ∈ [[Turn.release e, .run o (some e)], [.run o (some e), .release e]],
      Served o d ((s.pool.engines.set (.warming none deadline) e).set x d) s (s.takeTurns 32 turns) := by
  simpa using ⟨h.releaseFirst_finds he hd, h.runFirst_finds he hd⟩

end Adrift

/-! ## A move of one output (R68, R85, R91) -/

section

variable {o : Screen} {e : EngineId} {s : State}

theorem letGo_alone (h : s.leaves o = some e) : s.letGo [o] = s.onOutput o .unhold := by
  simp [State.letGo, h]

/-- The report of a move re-runs one output, so that its two turns are taken as they stand. -/
theorem rerun_alone (h : s.leaves o = some e) :
    s.rerun [o] = (s.letGo [o]).takeTurns 32 [.release e, .run o (some e)] := by
  have hone : ∀ e : EngineId, (allEngines.filter fun d => some e == some d) = [e] := by decide
  have hleft : s.engineLeft [o] = [e] := by
    simp only [State.engineLeft, List.any_cons, List.any_nil, Bool.or_false, h, hone]
  have horder : s.orderMatters [o] = false := by simp [State.orderMatters]
  have hturns : s.turnOrder [o] = [.release e, .run o (some e)] := by
    simp only [State.turnOrder, horder, State.freeOrder, hleft, State.runs, List.map_cons, List.map_nil, h]
    cases hslated : s.slatedTurn (.run o (some e)) <;>
      simp [refill, hslated, show s.slatedTurn (.release e) = false from rfl]
  rw [State.rerun, horder, hturns]
  rfl

theorem leaves_of_move {n : Nat} {scrambled : Bool} {basis : Basis}
    (hj : s.judge o = (s, .passed n scrambled basis)) (hholds : (s.output o).engine = some e)
    (hn : (s.engine e).bound ≠ some n) : s.leaves o = some e := by
  rw [State.leaves, hholds, judge_passed_route hj]
  simp [Option.filter, hn]

/-- An output that moves to a scrambled service with no engine, from the engine it alone holds, has no claim. -/
theorem adrift_unhold {n : Nat} {basis : Basis} (hj : s.judge o = (s, .passed n true basis)) (hon : s.engine e ≠ .off)
    (halone : ∀ p ≠ o, (s.output p).engine ≠ some e) (hn : ∀ d, (s.engine d).bound ≠ some n)
    (hw : s.pool.wait = []) : Adrift o e n basis (s.onOutput o .unhold) := by
  have hran : Repooled o s (s.onOutput o .unhold) := .onOutput (Output.sameRoute_unhold _)
  have hnone : ((s.onOutput o .unhold).output o).engine = none := by
    rw [State.output_onOutput_same, Output.unhold_eq]
  exact ⟨hran.judge hj, hon, hran.unheld (by simp only [hnone, ne_eq, reduceCtorEq, not_false_eq_true]) halone, hnone,
    hn, hw⟩

end

/-- Settles O17: the keys of parities in use, a release, a move in the two orders of its turns, and the deadlines. -/
theorem releasedAndDueEnginesServeTheWaitList : Obligations.ReleasedAndDueEnginesServeTheWaitList := by
  refine ⟨fun s => ⟨parityInUse_iff_active s, promoteKeys_promotes s⟩,
    fun e s => ⟨fun h => by rw [releaseIfUnheld_held h], fun h => ?_⟩,
    fun o e n basis s hj hholds hon halone hn hw => ?_, fun t e s hp => ?_⟩
  · intro pooled rest
    have hrest : s.idleDeadline = rest := idleDeadline_eq s
    rw [releaseIfUnheld_unheld h]
    refine ⟨fun n last noKeyAt hx => ⟨fun hw => ?_, fun w ws hw => ?_⟩,
      fun target d hx => ⟨fun hw => ?_, fun w ws hw => ?_⟩⟩
    · rw [freeEngine_idle e hw, hx, Engine.freed, hrest, ← hw]
      rfl
    · rw [freeEngine_serves hw (.inl ⟨_, _, _, hx⟩), rebind_eq,
        show (s.onWait fun _ => ws).engine e = .active n last noKeyAt from hx]
      rfl
    · rw [freeEngine_idle e hw, hx, Engine.freed, ← hw]
      rfl
    · rw [freeEngine_serves hw (.inr ⟨_, _, hx⟩), rebind_eq,
        show (s.onWait fun _ => ws).engine e = .warming target d from hx]
      rfl
  · intro moved served active ready free keeps
    have hleaves := leaves_of_move hj hholds (hn e)
    have hadrift := adrift_unhold hj hon halone hn hw
    have hserved {d : EngineId} {es : Three Engine} (s₁ : State) (hm : moved s₁)
        (h : ∀ turns ∈ [[Turn.release e, .run o (some e)], [.run o (some e), .release e]],
          Served o d es (s.onOutput o .unhold) ((s.onOutput o .unhold).takeTurns 32 turns)) :
        served s₁ d ∧ s₁.engine = es.get := by
      have hs₁ : Served o d es (s.onOutput o .unhold) s₁ := by
        simp only [moved, rerun_alone hleaves, letGo_alone hleaves] at hm
        rcases hm with rfl | rfl | rfl <;> exact h _ (by simp)
      refine ⟨⟨by rw [hs₁.pool], hs₁.holds, fun p hp => ?_⟩, funext fun c => by rw [State.engine, hs₁.pool]⟩
      rw [hs₁.others p hp, State.output_onOutput_other s _ hp]
    refine ⟨fun hx s₁ hm => ?_, fun target deadline hx => ⟨fun hkeeps s₁ hm => ?_, fun d x hd s₁ hm => ?_⟩⟩
    · obtain ⟨hs₁, hengine⟩ := hserved s₁ hm (hadrift.follows (follows_of_not_warming hx))
      refine ⟨hs₁, ?_, fun d hd => ?_⟩
      · rw [hengine, Three.get_set_same]
        exact Engine.rebound_of_not_warming hon hx
      · rw [hengine, Three.get_set_other _ _ hd]
        rfl
    · have hfollows : (s.onOutput o .unhold).follows e = true :=
        (follows_of_warming hx).trans ((foundFree_iff _ _).2 hkeeps)
      obtain ⟨hs₁, hengine⟩ := hserved s₁ hm (hadrift.follows hfollows)
      refine ⟨hs₁, ?_, fun d hd => ?_⟩
      · rw [hengine, Three.get_set_same, show (s.onOutput o .unhold).engine e = .warming target deadline from hx]
        rfl
      · rw [hengine, Three.get_set_other _ _ hd]
        rfl
    · have hfinds : FindsBefore e n d x (s.onOutput o .unhold) := findsBefore_of hd
      have hne : d ≠ e := hfinds.ne (by rw [show (s.onOutput o .unhold).engine e = _ from hx]; rfl)
      obtain ⟨hs₁, hengine⟩ := hserved s₁ hm (hadrift.finds hx hfinds)
      refine ⟨hs₁, ?_, ?_, fun c hcd hce => ?_⟩
      · rw [hengine, Three.get_set_same]
      · rw [hengine, Three.get_set_other _ _ hne.symm, Three.get_set_same]
      · rw [hengine, Three.get_set_other _ _ hcd, Three.get_set_other _ _ hce]
        rfl
  · intro now s₀ pooled rest
    refine ⟨fun target d hx => ⟨_, exec_warmUpEnd hp hx, fun hd => if_neg (Nat.not_le.2 hd), fun hd n hn => ?_,
        fun hd hn => ⟨fun hw => ?_, fun w ws hw => ?_⟩⟩,
      fun d hx => exec_idleDeadline hp hx, fun n last d hx => ⟨_, exec_noKeyDeadline hp hx, ?_⟩⟩
    · subst hn
      rw [if_pos hd, endWarmUp_target (s := s.atInstant t) hx]
      exact reran_rerun _ _
    · subst hn
      rw [if_pos hd, endWarmUp_idle (s := s.atInstant t) hx hw, idleDeadline_eq, ← hw]
      exact reran_rerun _ _
    · subst hn
      rw [if_pos hd, endWarmUp_serves (s := s.atInstant t) hx hw]
      exact reran_rerun _ _
    · split
      · exact reran_rerun _ _
      · rfl

end Sys2Proof.Machine
end

section
/-! PROOF. The end of a route hold (R92, R94, R111; O21), and the deadlines of an output: its probes and its no-title
deadline (R84, R95, R96; O23). -/

namespace Sys2Proof.Machine

/-! ## The end of a hold (R94, R111) -/

/-- What a hold's end makes of an output, as a record. -/
theorem Output.unstage_eq (x : Output) :
    x.unstage = match x.staged with
      | none => x
      | some g => if g.route = x.route then { x with staged := none } else x.reroute g.route := by
  unfold Output.unstage
  cases x.staged <;> simp

theorem Output.restaged_eq (x : Output) : x.restaged = (x.unstage.route != x.route) := by
  rw [Output.restaged, Output.unstage_eq]
  cases x.staged with
  | none => simp
  | some g => by_cases h : g.route = x.route <;> simp [h, Output.reroute]

theorem Four.ext_get {f g : Four α} (h : ∀ o, f.get o = g.get o) : f = g := by
  obtain ⟨_, _, _, _⟩ := f
  obtain ⟨_, _, _, _⟩ := g
  have h0 := h 0
  have h1 := h 1
  have h2 := h 2
  have h3 := h 3
  simp only [Four.get] at h0 h1 h2 h3
  simp only [h0, h1, h2, h3]

theorem lock_dropScreens (os : List Screen) (s : State) :
    os.foldl (fun s o => s.dropUnlock (some o)) s =
      { s with lock := { s.lock with screens := os.foldl (fun u o => u.set none o) s.lock.screens } } := by
  induction os generalizing s with
  | nil => rfl
  | cons o os ih => rw [List.foldl_cons, ih]; rfl

theorem get_setNone (os : List Screen) (u : Four (Option α)) (o : Screen) :
    (os.foldl (fun u o => u.set none o) u).get o = if o ∈ os then none else u.get o := by
  induction os generalizing u with
  | nil => rfl
  | cons p os ih =>
    rw [List.foldl_cons, ih]
    by_cases h : o = p
    · simp [h]
    · simp [h, Four.get_set_other _ _ h]

theorem mem_stagedOff (s : State) (o : Screen) : o ∈ s.stagedOff ↔ (s.output o).staged = some .off := by
  have hall : o ∈ allScreens := by fin_cases o <;> decide
  simp [State.stagedOff, hall]

/-- The end of a hold applies the staged routes, ends the unlocks of the screens staged NONE, and reports once. -/
theorem endHold_reran (s : State) (unlocks : Four (Option Unlock))
    (h : ∀ o, unlocks.get o = if (s.output o).staged = some .off then none else s.lock.screens.get o) :
    let routed := s.onRouter fun r => { r with hold := none, outputs := r.outputs.map .unstage }
    let s₀ : State := { routed.refilter with lock := { s.lock with screens := unlocks } }
    Reran (if s.stagedOff = [] then allScreens.filter fun o => (s.output o).restaged else allScreens) s₀ s.endHold := by
  intro routed s₀
  have hdropped : s.stagedOff.foldl (fun s o => s.dropUnlock (some o)) routed.refilter = s₀ := by
    rw [lock_dropScreens]
    show ({ routed.refilter with lock := { s.lock with screens := _ } } : State) = s₀
    rw [show s.stagedOff.foldl (fun u o => u.set none o) routed.refilter.lock.screens = unlocks from
      Four.ext_get fun o => by
        rw [get_setNone, h]
        simp only [mem_stagedOff]
        rfl]
  simp only [State.endHold, List.isEmpty_iff]
  rw [hdropped]
  exact reran_rerun _ _

theorem stagedOff_eq_nil_iff (s : State) : s.stagedOff = [] ↔ ∀ o, (s.output o).staged ≠ some .off := by
  simp only [List.eq_nil_iff_forall_not_mem, mem_stagedOff, ne_eq]

/-- Settles O21: the hold's start or restart, and its two ends. -/
theorem routeHoldGathersRoutesUntilItEnds : Obligations.RouteHoldGathersRoutesUntilItEnds := by
  unfold Obligations.RouteHoldGathersRoutesUntilItEnds
  intro ended
  have hended (t : Nat) (s : State) : ended t s (s.atInstant t).endHold := by
    unfold ended
    intro applied off unlock routed s₀
    have happlied : applied = Output.unstage := by
      funext x
      simp only [applied, Output.unstage_eq, eq_comm (b := x.route)]
      rcases x.staged with _ | (_ | _) <;> rfl
    have hran : Reran (if (s.atInstant t).stagedOff = [] then
        allScreens.filter fun o => (s.output o).restaged else allScreens) s₀ (s.atInstant t).endHold := by
      simp only [s₀, routed, happlied]
      exact endHold_reran (s.atInstant t) ⟨unlock 0, unlock 1, unlock 2, unlock 3⟩
        fun o => by fin_cases o <;> rfl
    refine ⟨fun ⟨o, ho⟩ => ?_, fun hoff => ?_⟩
    · have hsome : (s.atInstant t).stagedOff ≠ [] := fun h => (stagedOff_eq_nil_iff _).1 h o ho
      rwa [if_neg hsome] at hran
    · have hnone : (s.atInstant t).stagedOff = [] := (stagedOff_eq_nil_iff _).2 hoff
      rw [if_pos hnone] at hran
      simpa only [happlied, Output.restaged_eq] using hran
  refine ⟨fun t s r hb => ?_, fun t s r hb => ?_, fun t d s hp hd => ?_⟩
  · rw [show exec (.routeHold t) s = execRouteHold t s from rfl, execRouteHold, occurs_powered hb.powered,
      request_begins t hb]
    rfl
  · rw [show exec (.routeRelease t) s = execRouteRelease t s from rfl, execRouteRelease, occurs_powered hb.powered,
      request_begins t hb]
    refine ⟨_, rfl, fun hh => if_neg ?_, fun hh => ?_⟩
    · rw [show (s.atInstant t).router.hold = none from hh]
      exact Bool.false_ne_true
    · rw [if_pos (Option.isSome_iff_ne_none.2 (show (s.atInstant t).router.hold ≠ none from hh))]
      exact hended t s
  · rw [show exec (.routeHoldDeadline t) s = execRouteHoldDeadline t s from rfl, execRouteHoldDeadline,
      occurs_powered hp]
    have hdue : due (s.atInstant t).router.hold (s.atInstant t) = decide (d ≤ max s.time.now t) := by
      rw [show (s.atInstant t).router.hold = some d from hd]
      rfl
    refine ⟨_, rfl, fun ht => if_neg ?_, fun ht => ?_⟩
    · rw [hdue]
      simpa using ht
    · rw [if_pos (by rw [hdue]; exact decide_eq_true ht)]
      exact hended t s

/-! ## Probes and the no-title deadline (R84, R95, R96) -/

theorem Four.set_set (f : Four α) (u v : α) (o : Screen) : (f.set u o).set v o = f.set v o := by
  fin_cases o <;> rfl

theorem onOutput_eq (o : Screen) (f : Output → Output) (s : State) :
    s.onOutput o f = s.onOutput o fun _ => f (s.output o) := rfl

theorem onOutput_onOutput (o : Screen) (f g : Output → Output) (s : State) :
    (s.onOutput o f).onOutput o g = s.onOutput o fun x => g (f x) := by
  simp only [State.onOutput, State.onRouter, Four.get_set_same, Four.set_set]

theorem Output.probed_agrees {x : Output} {display : Bool} (now : Nat) (h : x.present = display) :
    x.probed now display = { x with probedAt := now, candidate := 0 } := by
  rw [Output.probed, if_pos h]

theorem Output.probed_differs {x : Output} {display : Bool} (now : Nat) (h : x.present ≠ display) :
    x.probed now display = { x with probedAt := now, candidate := x.candidate + 1 } := by
  rw [Output.probed, if_neg h]

section

variable {s : State} {o : Screen} {display : Bool}

theorem probe_agrees (h : (s.output o).present = display) :
    s.probe o display = s.onOutput o fun _ => { s.output o with probedAt := s.now, candidate := 0 } := by
  simp only [State.probe, State.output_onOutput_same, onOutput_eq o (Output.probed _ _), Output.probed_agrees _ h]
  rfl

theorem probe_first (h : (s.output o).present ≠ display) (hc : (s.output o).candidate = 0) :
    s.probe o display = s.onOutput o fun _ => { s.output o with probedAt := s.now, candidate := 1 } := by
  simp only [State.probe, State.output_onOutput_same, onOutput_eq o (Output.probed _ _), Output.probed_differs _ h, hc]
  rfl

theorem probe_second (h : (s.output o).present ≠ display) (hc : (s.output o).candidate ≠ 0) :
    s.probe o display = (((s.onOutput o fun _ => { s.output o with
      probedAt := s.now, present := display, candidate := 0
      contentSeen := (s.output o).contentSeen && !display }).raise .screen).refilter).rerun [o] := by
  have htwo : 2 ≤ (s.output o).candidate + 1 := by omega
  simp only [State.probe, State.output_onOutput_same, onOutput_eq o (Output.probed _ _), Output.probed_differs _ h,
    if_pos htwo, State.changePresence, onOutput_onOutput, Output.setPresence]

end

/-- Settles O23: a probe that is due, by what it finds, and the no-title deadline. -/
theorem presenceAndNoTitleFollowTheirProbesAndDeadlines :
    Obligations.PresenceAndNoTitleFollowTheirProbesAndDeadlines := by
  intro t o s hp now x with'
  refine ⟨fun display => ?_, fun d hd => ?_⟩
  · rw [show exec (.presenceProbe t o display) s = execPresenceProbe t o display s from rfl, execPresenceProbe,
      occurs_powered hp]
    have hdue : reached (((s.atInstant t).output o).probedAt + (s.atInstant t).cur.settings.probe * 1000)
        (s.atInstant t) = !decide (now < x.probedAt + s.cur.settings.probe * 1000) := by
      rw [← decide_not]
      exact decide_eq_decide.2 Nat.not_lt.symm
    refine ⟨_, rfl, ?_⟩
    rw [hdue]
    by_cases hearly : now < x.probedAt + s.cur.settings.probe * 1000
    · simp only [hearly, decide_true, Bool.not_true, Bool.false_eq_true, if_true, if_false]
    simp only [hearly, decide_false, Bool.not_false, if_true, if_false]
    split
    next hsame => exact probe_agrees (s := s.atInstant t) hsame
    next hdiffers =>
      split
      next hfirst => exact probe_first (s := s.atInstant t) hdiffers hfirst
      next hsecond =>
        rw [probe_second (s := s.atInstant t) hdiffers hsecond]
        exact reran_rerun _ _
  · rw [show exec (.noTitleDeadline t o) s = execNoTitleDeadline t o s from rfl, execNoTitleDeadline,
      occurs_powered hp]
    have hdue : due ((s.atInstant t).output o).noTitleAt (s.atInstant t) = decide (d ≤ now) := by
      rw [show ((s.atInstant t).output o).noTitleAt = some d from hd]
      rfl
    refine ⟨_, rfl, ?_⟩
    rw [hdue]
    split
    next hearly => exact if_neg (by simpa using hearly)
    next hlate =>
      rw [if_pos (by simpa using hlate)]
      exact reran_rerun _ _

end Sys2Proof.Machine
end

section
/-! PROOF. The frame boundary: what changes on the screens, and the meter sessions that follow it (R86 to R88, R97, R110,
R140; O22). -/

namespace Sys2Proof.Machine

/-! ## What a boundary changes on the screens (R86, R88) -/

theorem Four.toList_eq (f : Four α) : f.toList = allScreens.map f.get := rfl

/-- ROUTE is raised once for each screen whose shown state changes. -/
theorem changedShown_eq (before after : Four Output) :
    changedShown before after = (allScreens.filter fun o => (before.get o).shown != (after.get o).shown).length := by
  rw [changedShown, Four.toList_eq, Four.toList_eq, List.zip_map', List.filter_map, List.length_map]
  rfl

theorem showsMetered_iff (s : State) (n : Nat) :
    s.showsMetered n = true ↔ ∃ o, (s.output o).shown = .playing .metered ∧ (s.output o).shownService = some n := by
  simp only [State.showsMetered, List.any_eq_true, mem_four, Bool.and_eq_true, beq_iff_eq]
  exact ⟨fun ⟨_, ⟨o, rfl⟩, h⟩ => ⟨o, h⟩, fun ⟨o, h⟩ => ⟨_, ⟨o, rfl⟩, h⟩⟩

/-! ## Meter sessions follow what is shown (R140) -/

theorem follow_shown {now : Nat} {x : Session} (h : x.idle = true) :
    x.follow now true = { x with idle := false, rejoin := none } := by
  simp [Session.follow, h]

theorem follow_unshown {now : Nat} {x : Session} (h : x.idle = false) :
    x.follow now false = { x with idle := true, rejoin := some (now + 120000) } := by
  simp [Session.follow, h]

theorem follow_same {now : Nat} {shown : Bool} {x : Session} (h : shown = true ↔ x.idle = false) :
    x.follow now shown = x := by
  cases shown <;> simp_all [Session.follow]

theorem follow_eq_self_iff (now : Nat) (shown : Bool) (x : Session) :
    x.follow now shown = x ↔ (shown = true ↔ x.idle = false) := by
  refine ⟨fun h => ?_, follow_same⟩
  have hidle : (x.follow now shown).idle = !shown := by
    cases shown <;> cases hi : x.idle <;> simp [Session.follow, hi]
  rw [h] at hidle
  rw [hidle, Bool.not_eq_false']

/-- The meter table after a boundary. -/
def State.followed (s : State) : List Session :=
  s.cur.meter.map fun x => x.follow s.now (s.showsMetered x.service)

/-- Session by session, by whether its service is shown. -/
theorem followed_rel {s : State} {shows : Nat → Prop} (h : ∀ n, shows n ↔ s.showsMetered n = true) :
    List.Forall₂ (fun x y =>
      (shows x.service → x.idle = true → y = { x with idle := false, rejoin := none }) ∧
      (¬ shows x.service → x.idle = false → y = { x with idle := true, rejoin := some (s.now + 120000) }) ∧
      ((shows x.service ↔ x.idle = false) → y = x)) s.cur.meter s.followed := by
  refine List.forall₂_map_right_iff.2 (List.forall₂_same.2 fun x _ => ⟨fun hx hi => ?_, fun hx hi => ?_, fun hx => ?_⟩)
  · rw [(h _).1 hx, follow_shown hi]
  · rw [Bool.eq_false_iff.2 fun hn => hx ((h _).2 hn), follow_unshown hi]
  · exact follow_same ((h _).symm.trans hx)

/-- A session that goes IDLE changes the table. -/
theorem goingIdle_of_followed_same {s : State} (h : s.followed = s.cur.meter) : s.goingIdle = [] := by
  have hsame : ∀ x ∈ s.cur.meter, x.follow s.now (s.showsMetered x.service) = x :=
    List.map_inj_left.1 (h.trans (List.map_id _).symm)
  rw [State.goingIdle, List.map_eq_nil_iff, List.filter_eq_nil_iff]
  intro x hx
  have hshown := (follow_eq_self_iff _ _ _).1 (hsame x hx)
  cases hi : x.idle <;> simp_all

theorem judgeSessions_eq (s : State) :
    s.judgeSessions =
      let moved := s.onCur fun r => { r with meter := s.followed }
      let written := if s.followed = s.cur.meter then moved else moved.meterChanged
      if s.goingIdle = [] then written else written.rerun (written.routedOrFull s.goingIdle) := rfl

theorem judgeSessions_same {s : State} (h : s.followed = s.cur.meter) : s.judgeSessions = s := by
  rw [judgeSessions_eq]
  simp only [if_pos (goingIdle_of_followed_same h), h]
  rfl

theorem judgeSessions_changed {s : State} (h : s.followed ≠ s.cur.meter) :
    s.judgeSessions =
      let written := (s.onCur fun r => { r with meter := s.followed }).meterChanged
      if s.goingIdle = [] then written else written.rerun (written.routedOrFull s.goingIdle) := by
  rw [judgeSessions_eq]
  simp only [if_neg h]

/-! ## The boundary (R86, R87, R97) -/

/-- The screens with their decided states shown, and ROUTE raised for those that changed. -/
def State.shownTold (s : State) : State :=
  (s.onOutputs .show).raiseTimes .route
    (allScreens.filter fun o => (s.output o).shown != (s.output o).decided).length

theorem time_raiseTimes (c : EventClass) (n : Nat) (s : State) : (s.raiseTimes c n).time = s.time := by
  induction n generalizing s with
  | zero => rfl
  | succ n ih => exact ih (s.raise c)

/-- Whether a boundary changes the shown state of a screen, or the service it is shown for (log 18). -/
def State.showsNew (s : State) (o : Screen) : Bool :=
  (s.output o).shown != (s.output o).decided || (s.output o).shownService != (s.output o).route

theorem showsNew_iff (s : State) :
    allScreens.any s.showsNew = true ↔
      ¬ ((allScreens.filter fun o => (s.output o).shown != (s.output o).decided) = [] ∧
        (allScreens.filter fun o => (s.output o).shownService != (s.output o).route) = []) := by
  rw [← not_iff_not, not_not, Bool.not_eq_true, List.any_eq_false]
  simp only [List.filter_eq_nil_iff, State.showsNew, Bool.or_eq_true, not_or, forall_and]

theorem showsAnew_show (s : State) : (s.onOutputs .show).showsAnew s = s.showsNew := by
  funext o
  simp only [State.showsAnew, State.showsNew, State.output_onOutputs, Output.show]
  congr 1 <;> exact bne_comm

theorem showAll_eq (s : State) :
    s.showAll = if allScreens.any s.showsNew then s.shownTold.judgeShown s.showsNew else s.shownTold := by
  have htold : changedShown s.router.outputs (s.onOutputs .show).router.outputs =
      (allScreens.filter fun o => (s.output o).shown != (s.output o).decided).length := by
    rw [changedShown_eq]
    congr
    funext o
    exact congrArg _ (congrArg Output.shown (s.output_onOutputs .show o))
  simp only [State.showAll, showsAnew_show, htold]
  rfl

/-- Settles O22: the boundary not yet due, on dark outputs, with nothing new to show, and with something new. -/
theorem frameBoundaryShowsTheDecidedStates : Obligations.FrameBoundaryShowsTheDecidedStates := by
  intro t s hp
  rw [show exec (.frameBoundary t) s = execFrameBoundary t s from rfl, execFrameBoundary, occurs_powered hp]
  refine ⟨_, rfl, ?_⟩
  intro now interval s₀ changed moved shown told
  have hs₀ : (s.atInstant t).nextBoundary = s₀ := rfl
  have htold : s₀.shownTold = told := rfl
  have hnew : allScreens.any s₀.showsNew = true ↔ ¬ (changed = [] ∧ moved = []) := showsNew_iff s
  split
  next hearly => exact if_neg (Nat.not_le.2 hearly)
  next hdue =>
  rw [if_pos (show (s.atInstant t).time.nextFrame ≤ 3 * (s.atInstant t).now from Nat.not_lt.1 hdue), hs₀]
  split
  next hdark => exact if_pos hdark
  next hlit =>
  rw [if_neg (show ¬ (s.atInstant t).router.dark = true from hlit), showAll_eq, htold]
  split
  next hsame => exact if_neg fun h => hnew.1 h hsame
  next hshows =>
  rw [if_pos (hnew.2 hshows)]
  have hlapses := onlyLapses_judgeLapses told s₀.showsNew
  obtain ⟨s₂, hs₂⟩ : ∃ s₂, s₂ = told.judgeLapses s₀.showsNew := ⟨_, rfl⟩
  rw [← hs₂] at hlapses
  refine ⟨s₂, hs₂, hlapses, ?_⟩
  have hnow : s₂.now = now := congrArg Timebase.now (hlapses.time.trans (time_raiseTimes _ _ _))
  have hjudged : told.judgeShown s₀.showsNew = s₂.judgeSessions := by rw [State.judgeShown, hs₂]
  rw [hjudged, ← hnow]
  intro shows
  refine ⟨s₂.followed, followed_rel fun n => (showsMetered_iff s₂ n).symm, ?_⟩
  intro s₃
  split
  next hsame => exact judgeSessions_same hsame
  next hchanged =>
  rw [judgeSessions_changed hchanged]
  split
  next => rfl
  next => exact reran_rerun _ _

end Sys2Proof.Machine
end

section
/-! PROOF. The turns of a report, and the order they are taken in (R85; logs 4, 9; O18). -/

namespace Sys2Proof.Machine

/-! ## Free orders (log 4) -/

theorem insertAt_perm (x : α) (k : Nat) (l : List α) : (insertAt x k l).Perm (x :: l) := by
  induction l generalizing k with
  | nil => cases k <;> exact .refl _
  | cons y ys ih =>
    cases k with
    | zero => exact .refl _
    | succ k => exact ((ih k).cons y).trans (.swap x y ys)

theorem permute_perm (n : Nat) (l : List α) : (permute n l).Perm l := by
  induction l generalizing n with
  | nil => exact .refl _
  | cons x xs ih => exact (insertAt_perm x _ _).trans ((ih _).cons x)

theorem freeOrder_perm (matters : Bool) (l : List α) (s : State) : (s.freeOrder matters l).Perm l := by
  unfold State.freeOrder
  split
  · exact permute_perm _ l
  · exact .refl l

/-- The items refilled, and the others where they were. -/
theorem refill_perm {p : α → Bool} {l these : List α} (h : these.length = (l.filter p).length) :
    (refill p l these).Perm (these ++ l.filter fun x => !p x) := by
  induction l generalizing these with
  | nil =>
    cases List.eq_nil_of_length_eq_zero h
    exact .refl _
  | cons x xs ih =>
    cases hx : p x with
    | true =>
      obtain ⟨y, ys, rfl⟩ : ∃ y ys, these = y :: ys := List.exists_cons_of_length_eq_add_one (by simpa [hx] using h)
      simpa [refill, hx] using ih (these := ys) (by simpa [hx] using h)
    | false =>
      simp only [refill, hx, Bool.false_eq_true, if_false, List.filter_cons, Bool.not_false, if_true]
      exact ((ih (by simpa [hx] using h)).cons x).trans List.perm_middle.symm

theorem filter_refill {p : α → Bool} {l these : List α} (h : these.length = (l.filter p).length)
    (hp : ∀ y ∈ these, p y = true) : (refill p l these).filter p = these := by
  induction l generalizing these with
  | nil => exact (List.eq_nil_of_length_eq_zero h).symm
  | cons x xs ih =>
    cases hx : p x with
    | true =>
      obtain ⟨y, ys, rfl⟩ : ∃ y ys, these = y :: ys := List.exists_cons_of_length_eq_add_one (by simpa [hx] using h)
      simp only [List.mem_cons, forall_eq_or_imp] at hp
      simpa [refill, hx, hp.1] using ih (these := ys) (by simpa [hx] using h) hp.2
    | false =>
      simpa [refill, hx] using ih (by simpa [hx] using h) hp

/-! ## The order of the turns (R85) -/

theorem filter_releases (s : State) (es : List EngineId) : (es.map Turn.release).filter s.slatedTurn = [] := by
  simp [List.filter_map, Function.comp_def, State.slatedTurn]

theorem slated_length (s : State) (outs : List Screen) :
    ((s.runs outs).filter s.slatedTurn).length =
      ((s.freeOrder (s.orderMatters outs) ((s.engineLeft outs).map Turn.release ++ s.runs outs)).filter
        s.slatedTurn).length := by
  rw [((freeOrder_perm _ _ s).filter _).length_eq, List.filter_append, filter_releases, List.nil_append]

theorem turnOrder_perm (s : State) (outs : List Screen) :
    (s.turnOrder outs).Perm ((s.engineLeft outs).map Turn.release ++ s.runs outs) := by
  have horder := freeOrder_perm (s.orderMatters outs) ((s.engineLeft outs).map Turn.release ++ s.runs outs) s
  have hslated := horder.filter s.slatedTurn
  rw [List.filter_append, filter_releases, List.nil_append] at hslated
  exact (((refill_perm (slated_length s outs)).trans (hslated.symm.append_right _)).trans
    (List.filter_append_perm s.slatedTurn _)).trans horder

theorem filter_turnOrder (s : State) (outs : List Screen) :
    (s.turnOrder outs).filter s.slatedTurn = (s.runs outs).filter s.slatedTurn :=
  filter_refill (slated_length s outs) fun _ hx => (List.mem_filter.1 hx).2

/-! ## The outputs that leave an engine (R68, R69) -/

theorem useOrder_eq (matters : Bool) (s : State) :
    s.useOrder matters = { s with choices := (s.useOrder matters).choices } := by
  unfold State.useOrder
  split <;> rfl

theorem letGo_cons (o : Screen) (os : List Screen) (s : State) :
    s.letGo (o :: os) = (if s.leaves o = none then s else s.onOutput o .unhold).letGo os := by
  show State.letGo os (if (s.leaves o).isSome then _ else _) = _
  cases s.leaves o <;> rfl

theorem letGo_eq (outs : List Screen) (s : State) :
    s.letGo outs = { s with router := { s.router with outputs := (s.letGo outs).router.outputs } } := by
  induction outs generalizing s with
  | nil => rfl
  | cons o os ih =>
    rw [letGo_cons, ih]
    split <;> rfl

theorem leaves_unhold_same (s : State) (o : Screen) : (s.onOutput o .unhold).leaves o = none := by
  rw [State.leaves, State.output_onOutput_same, Output.unhold_eq]
  rfl

theorem leaves_unhold_other (s : State) {o p : Screen} (h : p ≠ o) : (s.onOutput o .unhold).leaves p = s.leaves p := by
  simp only [State.leaves, State.output_onOutput_other _ _ h]
  rfl

theorem output_letGo (outs : List Screen) (s : State) (o : Screen) :
    (s.letGo outs).output o = if o ∈ outs ∧ s.leaves o ≠ none then (s.output o).unhold else s.output o := by
  induction outs generalizing s with
  | nil => simp [State.letGo]
  | cons p os ih =>
    rw [letGo_cons, ih]
    by_cases hp : o = p
    · subst hp
      by_cases hleaves : s.leaves o = none
      · simp [hleaves]
      · simp [hleaves, leaves_unhold_same]
    · by_cases hleaves : s.leaves p = none
      · simp [hleaves, hp]
      · simp [hleaves, hp, leaves_unhold_other s hp, State.output_onOutput_other s _ hp]

theorem leaves_eq_none_iff (s : State) (o : Screen) :
    s.leaves o = none ↔
      (s.output o).engine = none ∨ ∃ e, (s.output o).engine = some e ∧ (s.engine e).bound = (s.output o).route := by
  unfold State.leaves
  cases (s.output o).engine <;> simp [Option.filter]

theorem unhold_of_leaves {s : State} {o : Screen} (h : s.leaves o ≠ none) :
    (s.output o).unhold = { s.output o with engine := none, contentSeen := false } := by
  have hholds : (s.output o).engine.isNone = false := by
    rw [Option.isNone_eq_false_iff, Option.isSome_iff_ne_none]
    exact fun hnone => h ((leaves_eq_none_iff s o).2 (.inl hnone))
  rw [Output.unhold_eq, hholds, Bool.and_false]

/-- A report takes the releases and the runs in the order of log 4 and log 9. -/
theorem rerun_turns (outs : List Screen) (s : State) :
    ∃ (turns : List Turn) (s₀ : State), s.rerun outs = s₀.takeTurns 32 turns ∧
      turns.Perm ((s.engineLeft outs).map Turn.release ++ s.runs outs) ∧
      turns.filter s.slatedTurn = (s.runs outs).filter s.slatedTurn ∧
      s₀ = { s with choices := s₀.choices, router := { s.router with outputs := s₀.router.outputs } } ∧
      ∀ o, s₀.output o = if o ∈ outs ∧ s.leaves o ≠ none then
        { s.output o with engine := none, contentSeen := false } else s.output o := by
  refine ⟨s.turnOrder outs, _, rfl, turnOrder_perm s outs, filter_turnOrder s outs, ?_, fun o => ?_⟩
  · rw [letGo_eq, useOrder_eq]
  · have hsame : (s.useOrder (s.orderMatters outs)).output o = s.output o ∧
        (s.useOrder (s.orderMatters outs)).leaves o = s.leaves o := by
      rw [useOrder_eq]
      exact ⟨rfl, rfl⟩
    rw [output_letGo, hsame.1, hsame.2]
    split
    next hleaves => exact unhold_of_leaves hleaves.2
    next => rfl

/-- The report of one output that leaves no engine is its run (R85). -/
theorem rerun_settled {s : State} {o : Screen} (h : s.leaves o = none) :
    s.rerun [o] = (s.verdict o).1.takeTurns 31 ((s.verdict o).2.map fun p => .run p none) := by
  have horder : s.orderMatters [o] = false := by simp [State.orderMatters]
  have hturns : s.turnOrder [o] = [.run o none] :=
    List.perm_singleton.1 (by simpa [State.engineLeft, State.runs, h] using turnOrder_perm s [o])
  have hletGo : s.letGo [o] = s := by rw [letGo_cons, if_pos h]; rfl
  rw [State.rerun, horder, hturns, show s.useOrder false = s from rfl, hletGo, takeTurns_cons]
  rfl

end Sys2Proof.Machine
end

section
/-! PROOF. The record a run of a verdict leaves, by the case it ends at (R81, R83, R84; logs 17, 42; O18). -/

namespace Sys2Proof.Machine

/-! ## The end of a claim, seen from the output it was of (R68, R72) -/

theorem output_holdAll {e : EngineId} {o : Screen} {outs : List Screen} (s : State) (h : o ∉ outs) :
    (s.holdAll e outs).output o = s.output o := by
  unfold State.holdAll
  induction outs generalizing s with
  | nil => rfl
  | cons p ps ih =>
    obtain ⟨hp, hps⟩ := List.ne_and_not_mem_of_not_mem_cons h
    rw [List.foldl_cons, ih _ hps, State.output_onOutput_other _ _ hp]

/-- An engine freed is handed to outputs that wait, and to no other. -/
theorem output_releaseIfUnheld {s : State} {o : Screen} (e : EngineId) (h : ∀ w ∈ s.pool.wait, o ∉ w.outputs) :
    (s.releaseIfUnheld e).1.output o = s.output o := by
  unfold State.releaseIfUnheld
  split
  case isFalse => rfl
  case isTrue =>
    show (s.freeEngine e).1.output o = s.output o
    unfold State.freeEngine
    cases hw : s.pool.wait with
    | nil => dsimp only; split <;> rfl
    | cons w ws =>
      have ho : o ∉ w.outputs := h w (by rw [hw]; exact .head _)
      dsimp only
      split
      · exact output_holdAll _ ho
      · exact output_holdAll _ ho
      · rfl

theorem not_mem_unwait {o : Screen} {ws : List WaitEntry} {w : WaitEntry} (h : w ∈ unwait o ws) : o ∉ w.outputs := by
  obtain ⟨v, -, rfl⟩ := List.mem_map.1 (List.mem_filter.1 h).1
  simp

theorem output_endClaim (o : Screen) (s : State) : (s.endClaim o).1.output o = (s.output o).unhold := by
  unfold State.endClaim
  split
  next hnone =>
    rw [Output.unhold, hnone]
    rfl
  next e _ =>
    rw [output_releaseIfUnheld e fun _ => not_mem_unwait, State.output_onOutput_same]
    rfl

/-! ## The runs that do not come to the engine stage -/

/-- Cases 1 to 8 leave the outputs and the Engine Pool alone. -/
theorem judge_leaves (o : Screen) (s : State) : (s.judge o).1.router = s.router ∧ (s.judge o).1.pool = s.pool := by
  have hjudge : (s.judge o).1 = (s.judge o).1.repool s.pool s.keys s.router :=
    congrArg Prod.fst (judge_repool s.pool s.keys s.router s (o := o) rfl rfl)
  exact ⟨by rw [hjudge]; rfl, by rw [hjudge]; rfl⟩

theorem judge_output (o p : Screen) (s : State) : (s.judge o).1.output p = s.output p := by
  rw [State.output, (judge_leaves o s).1]
  rfl

section

variable {s : State} {o : Screen}

theorem judge_eq {x : Ending} (h : (s.judge o).2 = x) : s.judge o = ((s.judge o).1, x) := by
  rw [← h]

theorem verdict_early {d : OutState} (h : (s.judge o).2 = .early d) :
    (s.verdict o).1.output o = (s.output o).unhold.endEarly d := by
  rw [State.verdict, judge_eq h]
  simp only [State.output_onOutput_same, output_endClaim, judge_output]

theorem verdict_untitled (h : (s.judge o).2 = .untitled) :
    (s.verdict o).1.output o = (s.output o).unhold.endUntitled s.time.now := by
  have htime : (s.judge o).1.now = s.time.now := congrArg Timebase.now (onlyVerdicts_judge o s).time
  rw [State.verdict, judge_eq h]
  simp only [State.output_onOutput_same, output_endClaim, judge_output, htime]

theorem verdict_clear {n : Nat} {b : Basis} (h : (s.judge o).2 = .passed n false b) :
    (s.verdict o).1.output o = (s.output o).unhold.endPassed b := by
  rw [State.verdict, judge_eq h]
  simp only [State.output_onOutput_same, output_endClaim, judge_output]

/-! ## The engine stage (R68, R69, R83) -/

theorem output_endOtherClaim (o : Screen) (n : Nat) (s : State) :
    (s.endOtherClaim o n).1.output o = if s.claimOf o = some n then s.output o else (s.output o).unhold := by
  unfold State.endOtherClaim
  split
  · rfl
  · exact output_endClaim o s

/-- The Pool gives an engine that is bound to the service, or lets the output wait for it; it waits only with no engine
bound to the service. -/
theorem obtainEngine_cases (o : Screen) (n : Nat) (s : State) :
    (∃ e x, s.obtainEngine o n = s.holding o e x ∧ x.bound = some n) ∨
      s.obtainEngine o n = { s with pool := { s.pool with wait := joinWait o n s.pool.wait } } ∧
        ∀ d, (s.engine d).bound ≠ some n := by
  cases hbound : s.boundEngine n with
  | some e => exact .inl ⟨e, _, obtainEngine_bound hbound, (boundEngine_eq_some_iff.1 hbound).1⟩
  | none =>
  cases hready : s.engineWhere Engine.isReady with
  | some e => exact .inl ⟨e, _, obtainEngine_ready hbound hready, rfl⟩
  | none =>
  cases hfree : s.engineWhere Engine.isFreeWarming with
  | some e =>
    obtain ⟨d, hd⟩ := (Engine.isFreeWarming_iff _).1 (engineWhere_some hfree)
    exact .inl ⟨e, _, obtainEngine_freeWarming hbound hready hfree hd, rfl⟩
  | none =>
  cases hoff : s.engineWhere Engine.isOff with
  | some e => exact .inl ⟨e, _, obtainEngine_off hbound hready hfree hoff, rfl⟩
  | none => exact .inr ⟨obtainEngine_wait hbound hready hfree hoff, boundEngine_eq_none_iff.1 hbound⟩

theorem mem_joinWait (o : Screen) (n : Nat) (ws : List WaitEntry) :
    ∃ w ∈ joinWait o n ws, w.service = n ∧ o ∈ w.outputs := by
  rw [joinWait_eq]
  split
  next hjoins =>
    obtain ⟨w, hw, hn⟩ := hjoins
    refine ⟨_, List.mem_map.2 ⟨w, hw, rfl⟩, ?_⟩
    by_cases ho : o ∈ w.outputs <;> simp [hn, ho]
  next => exact ⟨⟨n, [o]⟩, by simp, rfl, by simp⟩

/-- An output as a run that comes to the engine stage for a service makes its claim: any other claim has ended. -/
def State.claimant (s : State) (o : Screen) (n : Nat) : Output :=
  if s.claimOf o = some n then s.output o else (s.output o).unhold

theorem claimOf_held {e : EngineId} (h : (s.output o).engine = some e) : s.claimOf o = (s.engine e).bound := by
  rw [State.claimOf, h]

/-- An output that claims a service and holds no engine of it holds none. -/
theorem claimant_unserved {n : Nat} (h : s.claimOf o = some n → ∀ d, (s.engine d).bound ≠ some n) :
    (s.claimant o n).engine = none := by
  unfold State.claimant
  split
  next hclaims =>
    rw [Option.eq_none_iff_forall_ne_some]
    intro e he
    exact h hclaims e ((claimOf_held he).symm.trans hclaims)
  next => rw [Output.unhold_eq]

/-- Another engine than before clears the content-seen flag, and so does one bound to another service. -/
theorem claimant_hold_contentSeen (s : State) (o : Screen) (n : Nat) (e : EngineId) :
    ((s.claimant o n).hold e).contentSeen =
      ((s.output o).contentSeen && decide ((s.output o).engine = some e ∧ (s.engine e).bound = some n)) := by
  unfold State.claimant
  split
  next hclaims =>
    have hbound : (s.output o).engine = some e → (s.engine e).bound = some n := fun he =>
      (claimOf_held he).symm.trans hclaims
    simp only [Output.hold, and_iff_left_of_imp hbound, Bool.beq_eq_decide_eq]
  next hother =>
    have hbound : ¬ ((s.output o).engine = some e ∧ (s.engine e).bound = some n) := fun ⟨he, hb⟩ =>
      hother ((claimOf_held he).trans hb)
    simp [Output.unhold_eq, Output.hold, hbound]

/-- The claim is answered by an engine bound to the service, or by a place on the wait list. -/
theorem claim_cases (o : Screen) (n : Nat) (s : State) :
    (∃ e, (s.claim o n).1.output o = (s.claimant o n).hold e ∧ ((s.claim o n).1.engine e).bound = some n) ∨
      (s.claim o n).1.output o = s.claimant o n ∧ (s.claimant o n).engine = none ∧
        ∃ w ∈ (s.claim o n).1.pool.wait, w.service = n ∧ o ∈ w.outputs := by
  have hended := output_endOtherClaim o n s
  have hclaim : (s.claim o n).1 = ((s.endOtherClaim o n).1.obtainEngine o n).promoteKeys := rfl
  rcases obtainEngine_cases o n (s.endOtherClaim o n).1 with ⟨e, x, hx, hbound⟩ | ⟨hx, hnone⟩ <;> rw [hclaim, hx]
  · refine .inl ⟨e, ?_, ?_⟩
    · exact (Four.get_set_same _ _ o).trans (congrArg (Output.hold e) hended)
    · exact (congrArg Engine.bound (Three.get_set_same _ x e)).trans hbound
  · refine .inr ⟨hended, claimant_unserved fun hclaims => ?_, mem_joinWait o n _⟩
    have hsame : s.endOtherClaim o n = (s, []) := if_pos hclaims
    rwa [hsame] at hnone

theorem verdict_scrambled {n : Nat} {b : Basis} (h : (s.judge o).2 = .passed n true b) :
    (∃ e, (s.verdict o).1.output o = ((s.claimant o n).hold e).endEngine b ((s.verdict o).1.engine e).answer ∧
        ((s.verdict o).1.engine e).bound = some n) ∨
      (s.verdict o).1.output o = (s.claimant o n).endEngine b .waits ∧ (s.claimant o n).engine = none ∧
        ∃ w ∈ (s.verdict o).1.pool.wait, w.service = n ∧ o ∈ w.outputs := by
  have hclaimant : (s.judge o).1.claimant o n = s.claimant o n := by
    have hclaimOf : (s.judge o).1.claimOf o = s.claimOf o := by
      simp only [State.claimOf, State.engine, judge_output, (judge_leaves o s).2]
    rw [State.claimant, hclaimOf, judge_output]
    rfl
  have hverdict : (s.verdict o).1 = ((s.judge o).1.claim o n).1.onOutput o fun x =>
      x.endEngine b (((s.judge o).1.claim o n).1.engineAnswer o) := by
    rw [State.verdict, judge_eq h]
    rfl
  have hcases := claim_cases o n (s.judge o).1
  rw [hclaimant] at hcases
  rw [hverdict, State.output_onOutput_same, State.engineAnswer]
  rcases hcases with ⟨e, hout, hbound⟩ | ⟨hout, hnone, hwait⟩
  · refine .inl ⟨e, ?_, hbound⟩
    rw [hout]
    rfl
  · refine .inr ⟨?_, hnone, hwait⟩
    rw [hout, hnone]

end

/-! ## The cases of R81 -/

theorem isPay_iff (r : Service) : r.isPay = true ↔ r.keyGroup ≠ none ∨ r.kind ≠ .free := by
  simp [Service.isPay, Option.isSome_iff_ne_none]

section

variable {s : State} {o : Screen}

theorem judge_absent (h : (s.output o).present = false) : s.judge o = (s, .early .absent) := if_pos h

theorem judge_unrouted (hp : (s.output o).present ≠ false) (h : (s.output o).route = none) :
    s.judge o = (s, .early .off) := by
  simp only [State.judge, if_neg hp, h]

theorem judge_unlisted {n : Nat} (hp : (s.output o).present ≠ false) (hn : (s.output o).route = some n)
    (h : s.service n = none) : s.judge o = (s, .early (.slate .noService)) := by
  simp only [State.judge, if_neg hp, hn, h]

theorem judge_listed {n : Nat} {r : Service} (hp : (s.output o).present ≠ false) (hn : (s.output o).route = some n)
    (h : s.service n = some r) :
    s.judge o =
      if s.cur.room.suspended = true ∧ (r.keyGroup ≠ none ∨ r.kind ≠ .free) then (s, .early (.slate .suspended))
      else if s.noSignal n = true then (s, .early (.slate .noSignal))
      else if r.kind = .film ∧ s.titleOf n = none then (s, .untitled)
      else if s.locked n o = true then (s, .early (.slate .lock))
      else ((s.access n r).1, (s.access n r).2.ending n r) := by
  simp only [State.judge, if_neg hp, hn, h, Bool.and_eq_true, isPay_iff, beq_iff_eq, Option.isNone_iff_eq_none]

end

theorem followOn_left (o : Screen) (e : EngineId) (s : State) :
    s.followOn o (some e) = ((s.judge o).2.scrambled.elim s fun n => s.refit e n) := by
  unfold State.followOn
  cases (s.judge o).2.scrambled <;> rfl

/-- Settles O18: the turns of a report, and the record that a run leaves at each case. -/
theorem verdictTakesTheFirstCaseThatApplies : Obligations.VerdictTakesTheFirstCaseThatApplies := by
  refine ⟨?_, fun s o e n x xs => ⟨?_, rfl, rfl, rfl, ?_⟩, fun s o h => ?_, fun o s => ?_⟩
  · intro outs s left slated runs
    have hslated : slated = s.slatedTurn := by
      funext x
      cases x <;> rfl
    rw [hslated]
    exact rerun_turns outs s
  · cases n <;> rfl
  · rw [State.take, followOn_left]
    rcases (s.judge o).2 with _ | _ | ⟨_, _ | _, _⟩ <;> rfl
  · exact rerun_settled ((leaves_eq_none_iff s o).2 h)
  intro x s' y ended titled
  have hearly {d : OutState} (h : (s.judge o).2 = .early d) : ended d ∧ titled := by
    have hy : y = x.unhold.endEarly d := verdict_early h
    simp only [ended, titled, hy, Output.unhold_eq]
    exact ⟨⟨rfl, rfl, rfl, rfl⟩, rfl, rfl⟩
  split
  next habsent => exact hearly (by rw [judge_absent habsent])
  next hpresent =>
  split
  next hroute => exact hearly (by rw [judge_unrouted hpresent hroute])
  next n hroute =>
  split
  next hservice => exact hearly (by rw [judge_unlisted hpresent hroute hservice])
  next r hservice =>
  have hjudge := judge_listed hpresent hroute hservice
  split
  next hsuspended => exact hearly (by rw [hjudge, if_pos hsuspended])
  next hsuspended =>
  rw [if_neg hsuspended] at hjudge
  split
  next hsignal => exact hearly (by rw [hjudge, if_pos hsignal])
  next hsignal =>
  rw [if_neg hsignal] at hjudge
  split
  next huntitled =>
    have hy : y = x.unhold.endUntitled s.time.now := verdict_untitled (by rw [hjudge, if_pos huntitled])
    simp only [ended, hy, Output.unhold_eq, Output.endUntitled]
    split <;> exact ⟨⟨rfl, rfl, rfl, rfl⟩, rfl, rfl⟩
  next huntitled =>
  rw [if_neg huntitled] at hjudge
  split
  next hlocked => exact hearly (by rw [hjudge, if_pos hlocked])
  next hlocked =>
  rw [if_neg hlocked] at hjudge
  split
  next reason haccess => exact hearly (by rw [hjudge, haccess, Access.ending])
  next basis haccess =>
  rw [haccess, Access.ending] at hjudge
  have hended : (s.judge o).2 = .passed n r.keyGroup.isSome basis := by rw [hjudge]
  cases hgroup : r.keyGroup with
  | none =>
    rw [hgroup] at hended
    have hy : y = x.unhold.endPassed basis := verdict_clear hended
    have hnone : x.engine.isNone = decide (x.engine = none) := by cases x.engine <;> simp
    simp only [titled, hy, Output.unhold_eq, Output.endPassed, Output.titled, hnone, and_self]
  | some g =>
    rw [hgroup] at hended
    rcases verdict_scrambled hended with ⟨e, hy, hbound⟩ | ⟨hy, hnone, hwait⟩
    · change y = _ at hy
      change (s'.engine e).bound = some n at hbound
      have hseen := claimant_hold_contentSeen s o n e
      have hengine : y.engine = some e := by rw [hy, Output.endEngine_engine]; rfl
      rw [hengine]
      cases hx : s'.engine e with
      | off => rw [hx] at hbound; cases hbound
      | ready i => rw [hx] at hbound; cases hbound
      | warming target d =>
        rw [hx] at hy hbound
        simp only [titled, hy, hx]
        exact ⟨⟨rfl, rfl⟩, hbound, rfl, rfl, rfl⟩
      | active m last noKeyAt =>
        rw [hx] at hy hbound
        cases noKeyAt with
        | none =>
          simp only [titled, hy, hx]
          exact ⟨⟨rfl, rfl⟩, hbound, rfl, rfl, hseen⟩
        | some d =>
          simp only [titled, hy, hx]
          exact ⟨⟨rfl, rfl⟩, hbound, ⟨rfl, rfl⟩, hseen⟩
    · change y = _ at hy
      have hengine : y.engine = none := by rw [hy, Output.endEngine_engine, hnone]
      rw [hengine]
      simp only [titled, hy]
      exact ⟨⟨rfl, rfl⟩, ⟨rfl, rfl, rfl⟩, hwait⟩

end Sys2Proof.Machine
end

section
/-! PROOF. The tick: property time, the expiries it finds, and the seconds it counts (R88, R120, R121, R128, R129, R137,
R138, R172, R173; O33). -/

namespace Sys2Proof.Machine

/-! ## Property time and expiries (R120, R172, R173) -/

theorem tickTime_eq (s : State) :
    s.tickTime = { s with time := { s.time with
      property := s.time.property.map PTime.next
      boundaryDue := s.time.boundaryDue ||
        (s.time.property.any fun p => p.next.sec == s.cur.policy.dayStart * 3600) } } := by
  unfold State.tickTime
  cases hp : s.time.property with
  | none =>
    simp only [Option.map_none, Option.any_none, Bool.or_false]
    rw [← hp]
  | some p => rfl

/-- The purchases a judgement of expiry finds at a property time. -/
def State.expiredBy (property : Option PTime) (s : State) : List Purchase :=
  match property with
  | none => []
  | some now => s.cur.purchases.filter fun p =>
      p.expiresAt.le now && !s.cancelling p.title && !(s.billing.expired.any fun q => q.same p)

theorem judgeExpiries_eq (s : State) :
    s.judgeExpiries = s.onBilling fun b => { b with expired := b.expired ++ s.expiredBy s.time.property } := by
  have hfound : (s.expiredNow.filter fun p => !(s.billing.expired.any (·.same p))) = s.expiredBy s.time.property := by
    unfold State.expiredNow State.expiredBy
    cases s.time.property with
    | none => rfl
    | some now =>
      rw [List.filter_filter]
      congr
      funext p
      rw [Bool.and_comm]
  rw [← hfound]
  rfl

/-- A tick as the clock, the Billing Unit's expiries and the play seconds of the outputs take it. -/
def State.timed (s : State) : State :=
  (s.onTime fun c => { c with nextTick := c.nextTick + 1000 }).tickTime.judgeExpiries.onOutputs .tick

theorem tick_eq (s : State) :
    s.tick = (if s.timed.occupied then s.timed.countViewing else s.timed).countMetered := rfl

theorem timed_eq (s : State) :
    s.timed = { s with
      time := { s.time with
        nextTick := s.time.nextTick + 1000
        property := s.time.property.map PTime.next
        boundaryDue := s.time.boundaryDue ||
          (s.time.property.any fun p => p.next.sec == s.cur.policy.dayStart * 3600) }
      router := { s.router with outputs := s.router.outputs.map .tick }
      billing := { s.billing with
        expired := s.billing.expired ++ s.expiredBy (s.time.property.map PTime.next) } } := by
  rw [State.timed, tickTime_eq, judgeExpiries_eq]
  rfl

/-! ## The titles shown, and the previews they count (R121, R128) -/

theorem mem_titlesShown (s : State) (b : Basis) (title : Nat) :
    title ∈ s.titlesShown b ↔
      ∃ o, (s.output o).shown = .playing b ∧ (s.output o).route.bind s.titleOf = some title := by
  simp only [State.titlesShown, mem_distinct, List.mem_filterMap, mem_four]
  refine ⟨fun ⟨_, ⟨o, rfl⟩, h⟩ => ⟨o, ?_⟩, fun ⟨o, hshown, htitle⟩ => ⟨_, ⟨o, rfl⟩, (if_pos hshown).trans htitle⟩⟩
  split at h
  next hshown => exact ⟨hshown, h⟩
  next => cases h

theorem Output.tick_shown (x : Output) :
    x.tick.shown = x.shown ∧ x.tick.shownService = x.shownService ∧ x.tick.route = x.route := by
  unfold Output.tick
  split <;> exact ⟨rfl, rfl, rfl⟩

theorem timed_output (s : State) (o : Screen) : s.timed.output o = (s.output o).tick := by
  rw [timed_eq]
  exact Four.get_map ..

theorem timed_cur (s : State) : s.timed.cur = s.cur := by
  rw [timed_eq]

theorem timed_occupied (s : State) : s.timed.occupied = s.occupied := by
  rw [timed_eq]
  rfl

theorem mem_titlesShown_timed (s : State) (b : Basis) (title : Nat) :
    title ∈ s.timed.titlesShown b ↔ title ∈ s.titlesShown b := by
  simp only [mem_titlesShown, timed_output, Output.tick_shown]
  rw [timed_eq]
  rfl

theorem evictPreview_eq (shown : List Nat) (l : List Preview) :
    evictPreview shown l = l.eraseP fun p => !shown.contains p.title := by
  induction l with
  | nil => rfl
  | cons p ps ih => by_cases h : p.title ∈ shown <;> simp [evictPreview, h, ih]

/-- The previews before any is begun: those shown gain a second (R128). -/
def heldPreviews (allowance : Nat) (shown : List Nat) (l : List Preview) : List Preview :=
  l.map fun p => if p.title ∈ shown ∧ p.used < allowance then { p with used := p.used + 1 } else p

theorem countPreviews_eq (allowance : Nat) (shown new : List Nat) (l : List Preview) :
    countPreviews allowance shown new l =
      new.foldl (fun l title => (if 32 ≤ l.length then l.eraseP fun p => !decide (p.title ∈ shown) else l) ++
        [⟨title, min 1 allowance⟩]) (heldPreviews allowance shown l) := by
  have hbegun : createPreview allowance shown = fun l title =>
      (if 32 ≤ l.length then l.eraseP fun p => !decide (p.title ∈ shown) else l) ++ [⟨title, min 1 allowance⟩] := by
    funext l title
    simp only [createPreview, evictPreview_eq, List.contains_eq_mem]
  rw [countPreviews, hbegun]
  congr
  funext p
  by_cases h : p.title ∈ shown <;> simp [h, Preview.count]

theorem nodup_newTitles (s : State) (b : Basis) (l : List Preview) : (newTitles (s.titlesShown b) l).Nodup :=
  (nodup_distinct _).filter _

theorem mem_newTitles (shown : List Nat) (l : List Preview) (title : Nat) :
    title ∈ newTitles shown l ↔ title ∈ shown ∧ ∀ p ∈ l, p.title ≠ title := by
  simp [newTitles]

/-- A change of the counts begins a viewing write, or owes one (R121). -/
theorem viewingChanged_eq (s : State) :
    s.viewingChanged = s.onBilling fun b =>
      { b with viewingWrite := true, viewingOwed := b.viewingOwed || b.viewingWrite } := by
  unfold State.viewingChanged
  congr
  funext b
  cases b.viewingWrite <;> simp

theorem useOrder_decide (p : Prop) [Decidable p] (s : State) :
    s.useOrder (decide p) = { s with choices := if p then s.choices + 1 else s.choices } := by
  by_cases h : p
  · simp only [h, if_true, decide_true]
    rfl
  · simp only [h, if_false, decide_false]
    rfl

/-- The viewing counts of a tick, for the titles of the previews begun, in their order. -/
theorem countViewing_eq (s : State) :
    ∃ titles : List Nat, titles.Nodup ∧
      (∀ title, title ∈ titles ↔ title ∈ s.titlesShown .preview ∧ ∀ p ∈ s.cur.previews, p.title ≠ title) ∧
      let purchases := countPlays (s.titlesShown .purchase) s.cur.purchases
      let previews := countPreviews s.cur.policy.preview (s.titlesShown .preview) titles s.cur.previews
      let reached := reachedAllowance s.cur.policy.preview s.cur.previews previews
      let counted : Bool := decide (purchases ≠ s.cur.purchases ∨ previews ≠ s.cur.previews)
      s.countViewing = { s with
        cur := { s.cur with purchases := purchases, previews := previews }
        choices := if 2 ≤ titles.length then s.choices + 1 else s.choices
        billing := { s.billing with
          allowanceReached := s.billing.allowanceReached ++ reached
          viewingWrite := s.billing.viewingWrite || counted
          viewingOwed := s.billing.viewingOwed || (s.billing.viewingWrite && counted) } } := by
  have horder := freeOrder_perm (decide (2 ≤ (newTitles (s.titlesShown .preview) s.cur.previews).length))
    (newTitles (s.titlesShown .preview) s.cur.previews) s
  refine ⟨_, horder.nodup_iff.2 (nodup_newTitles s _ _),
    fun title => (horder.mem_iff).trans (mem_newTitles _ _ title), ?_⟩
  intro purchases previews reached counted
  rw [horder.length_eq]
  have hcur : { s.cur with purchases := purchases, previews := previews } = s.cur ↔ counted = false := by
    rw [decide_eq_false_iff_not, not_or, not_not, not_not]
    refine ⟨fun h => ⟨congrArg Retained.purchases h, congrArg Retained.previews h⟩, fun ⟨hp, hv⟩ => ?_⟩
    rw [hp, hv]
  let told : State := { s with
    cur := { s.cur with purchases := purchases, previews := previews }
    choices := if 2 ≤ (newTitles (s.titlesShown .preview) s.cur.previews).length then s.choices + 1 else s.choices
    billing := { s.billing with allowanceReached := s.billing.allowanceReached ++ reached } }
  have hview : s.countViewing =
      if { s.cur with purchases := purchases, previews := previews } = s.cur then told else told.viewingChanged := by
    unfold State.countViewing
    simp only [useOrder_decide]
    rfl
  rw [hview]
  simp only [hcur, viewingChanged_eq]
  cases counted
  · simp only [Bool.or_false, Bool.and_false]
    rfl
  · simp only [Bool.or_true, Bool.and_true]
    rfl

/-- The viewing counts of a tick, which only an occupied room makes. -/
theorem viewing_eq (s : State) :
    ∃ titles : List Nat, titles.Nodup ∧
      (∀ title, title ∈ titles ↔ s.occupied = true ∧ title ∈ s.titlesShown .preview ∧
        ∀ p ∈ s.cur.previews, p.title ≠ title) ∧
      let purchases := if s.occupied then countPlays (s.titlesShown .purchase) s.cur.purchases else s.cur.purchases
      let previews := if s.occupied then
        countPreviews s.cur.policy.preview (s.titlesShown .preview) titles s.cur.previews else s.cur.previews
      let reached := if s.occupied then reachedAllowance s.cur.policy.preview s.cur.previews previews else []
      let counted : Bool := decide (purchases ≠ s.cur.purchases ∨ previews ≠ s.cur.previews)
      (if s.occupied then s.countViewing else s) = { s with
        cur := { s.cur with purchases := purchases, previews := previews }
        choices := if 2 ≤ titles.length then s.choices + 1 else s.choices
        billing := { s.billing with
          allowanceReached := s.billing.allowanceReached ++ reached
          viewingWrite := s.billing.viewingWrite || counted
          viewingOwed := s.billing.viewingOwed || (s.billing.viewingWrite && counted) } } := by
  cases s.occupied with
  | true => simpa only [if_true, true_and] using countViewing_eq s
  | false => exact ⟨[], .nil, by simp, by simp⟩

/-! ## The metered counts (R137, R138) -/

/-- The meter table after the counts of a tick. -/
def State.meterCounted (s : State) : List Session :=
  s.cur.meter.map fun x => x.count (s.showsMetered x.service) (s.meterTerms x.service)

theorem showsMetered_congr {s q : State} (h : ∀ o, (q.output o).shown = (s.output o).shown ∧
    (q.output o).shownService = (s.output o).shownService) : q.showsMetered = s.showsMetered := by
  funext n
  rw [Bool.eq_iff_iff]
  simp only [showsMetered_iff, h]

theorem countMetered_eq (s : State) :
    s.countMetered =
      let blocks := s.meterCounted.filterMap s.accrualOf
      let told : State := { s with
        cur := { s.cur with meter := s.meterCounted }
        billing := { s.billing with
          accruals := (s.billing.accruals.filter fun a => !(blocks.any fun d => d.service == a.service)) ++ blocks } }
      if s.cur.meter.any s.counts then told.meterChanged else told := rfl

theorem any_counts_iff (s : State) :
    s.cur.meter.any s.counts = true ↔
      ∃ x ∈ s.cur.meter, x.closing = none ∧ s.meterTerms x.service ≠ none ∧ s.showsMetered x.service = true := by
  simp only [List.any_eq_true, State.counts, Bool.and_eq_true, Option.isNone_iff_eq_none, Option.isSome_iff_ne_none,
    and_assoc]

theorem exec_tick {t : Nat} {s : State} (hp : s.power ≠ .off) :
    exec (.tick t) s =
      .next (if max s.time.now t < s.time.nextTick then s.atInstant t else (s.atInstant t).tick) := by
  have hreached : reached (s.atInstant t).time.nextTick (s.atInstant t) = true ↔
      ¬ max s.time.now t < s.time.nextTick := decide_eq_true_iff.trans Nat.not_lt.symm
  rw [show exec (.tick t) s = execTick t s from rfl, execTick, occurs_powered hp]
  simp only [hreached, ite_not]

/-- Settles O33: what the clock, the viewing counts and the metered counts make of a due tick, put together. -/
theorem tickCountsWhatIsShown : Obligations.TickCountsWhatIsShown := by
  intro t s hp
  refine ⟨_, exec_tick hp, ?_⟩
  split
  next => rfl
  next hdue =>
  rw [if_neg hdue]
  obtain ⟨titles, hnodup, htitles, hviewing⟩ := viewing_eq (s.atInstant t).timed
  intro up on shows metered occupied expired allowance purchases held begun session meter blocks
  have hoccupied : (s.atInstant t).timed.occupied = true ↔ occupied := by
    rw [timed_occupied]
    exact occupied_iff s
  have hshows (b : Basis) (title : Nat) : title ∈ (s.atInstant t).timed.titlesShown b ↔ shows b title :=
    (mem_titlesShown_timed ..).trans (mem_titlesShown s b title)
  have hcur : (s.atInstant t).timed.cur = s.cur := timed_cur _
  refine ⟨titles, hnodup, fun title => by rw [htitles, hoccupied, hshows, hcur], ?_⟩
  intro previews reached counted told
  have hpurchases : (if (s.atInstant t).timed.occupied then
      countPlays ((s.atInstant t).timed.titlesShown .purchase) s.cur.purchases else s.cur.purchases) = purchases := by
    simp only [purchases, countPlays, List.contains_iff_mem, hshows, hoccupied]
    split
    next h => simp only [h, true_and]; rfl
    next h => simp only [h, false_and, if_false, List.map_id']
  have hpreviews : (if (s.atInstant t).timed.occupied then
      countPreviews s.cur.policy.preview ((s.atInstant t).timed.titlesShown .preview) titles s.cur.previews
        else s.cur.previews) = previews := by
    simp only [countPreviews_eq, heldPreviews, hshows, hoccupied]
    rfl
  have hreached : (if (s.atInstant t).timed.occupied then
      reachedAllowance s.cur.policy.preview s.cur.previews previews else []) = reached.map (·.title) := by
    simp only [reachedAllowance, hoccupied, reached]
    split <;> rfl
  have hcounted : decide (purchases ≠ s.cur.purchases ∨ previews ≠ s.cur.previews) = decide counted := rfl
  have hexpired : (s.atInstant t).expiredBy ((s.atInstant t).time.property.map PTime.next) = expired := by
    unfold State.expiredBy
    simp only [expired, show (s.atInstant t).time.property = s.time.property from rfl]
    cases s.time.property <;> rfl
  simp only [hcur, hpurchases, hpreviews, hreached, hcounted] at hviewing
  rw [tick_eq]
  obtain ⟨q, hq⟩ : ∃ q, q = if (s.atInstant t).timed.occupied then (s.atInstant t).timed.countViewing
    else (s.atInstant t).timed := ⟨_, rfl⟩
  rw [← hq] at hviewing ⊢
  replace hq : q = { told with
      cur := { told.cur with meter := s.cur.meter }
      billing := { told.billing with accruals := s.billing.accruals } } := by
    rw [hviewing, timed_eq, hexpired]
    rfl
  have hterms : q.meterTerms = s.meterTerms := by
    rw [hq]
    rfl
  have hmetered (n : Nat) : q.showsMetered n = true ↔ metered n := by
    rw [showsMetered_congr (s := s) fun o => ?_]
    · exact showsMetered_iff s n
    · rw [show q.output o = (s.output o).tick by rw [hq]; exact Four.get_map ..]
      exact ⟨(Output.tick_shown _).1, (Output.tick_shown _).2.1⟩
  have hmeter : q.meterCounted = meter := by
    rw [State.meterCounted, hterms, show q.cur.meter = s.cur.meter by rw [hq]]
    refine List.map_congr_left fun x _ => ?_
    simp only [session, Session.count, hmetered]
    rfl
  have hblocks : q.meterCounted.filterMap q.accrualOf = blocks := by
    rw [hmeter]
    refine List.filterMap_congr fun x _ => ?_
    cases hclosing : x.closing with
    | some cause => simp only [State.accrualOf, hclosing]
    | none =>
      cases hm : s.meterTerms x.service <;>
        simp only [State.accrualOf, hterms, hclosing, hm, Session.blockDue, decide_eq_true_eq]
  have hany : q.cur.meter.any q.counts = true ↔
      ∃ x ∈ s.cur.meter, x.closing = none ∧ s.meterTerms x.service ≠ none ∧ metered x.service := by
    simp only [any_counts_iff, hterms, hmetered]
    rw [hq]
  have hcounts : { q with
      cur := { q.cur with meter := meter }
      billing := { q.billing with
        accruals := (q.billing.accruals.filter fun a => !(blocks.any fun d => d.service == a.service)) ++ blocks } } =
        told := by
    rw [hq]
  rw [countMetered_eq]
  dsimp only
  rw [hblocks, hmeter, hcounts]
  simp only [hany]

end Sys2Proof.Machine
end

section
/-! PROOF. What a verdict asks: exhausted previews and free slots, the effective rating and the lock's answer, and the
access stage (R82, R99, R101, R104, R129, R133, R136, R148; O19). -/

namespace Sys2Proof.Machine

/-! ## Previews and free slots (R129, R148) -/

section

variable {s : State} {t : Nat}

theorem exhausted_held {before after : List Preview} {p : Preview} (hl : s.cur.previews = before ++ p :: after)
    (hp : p.title = t) (hbefore : ∀ q ∈ before, q.title ≠ t) :
    s.exhausted t = true ↔ s.cur.policy.preview ≤ p.used := by
  have hfind : s.cur.previews.find? (·.title == t) = some p :=
    List.find?_eq_some_iff_append.2 ⟨by simp [hp], before, after, hl, fun q hq => by simp [hbefore q hq]⟩
  simp [State.exhausted, hfind]

theorem exhausted_unheld (h : ∀ p ∈ s.cur.previews, p.title ≠ t) :
    s.exhausted t = true ↔ s.cur.policy.preview = 0 := by
  have hfind : s.cur.previews.find? (·.title == t) = none := List.find?_eq_none.2 fun p hp => by simp [h p hp]
  simp [State.exhausted, hfind]

end

/-- The free slots as integers: places and numbers less what is promised, never below 0. -/
theorem freeSlots_eq (s : State) :
    (s.freeSlots : Int) =
      let promised : Int := s.cur.reserved + s.journal.pendingRecord
      max 0 (min (64 - s.cur.records.length - promised) (4294967296 - s.cur.nextNumber - promised)) := by
  simp only [State.freeSlots, numberLimit]
  omega

/-! ## The effective rating and the lock's answer (R99, R101, R104) -/

section

variable {s : State} {n : Nat} {r : Service}

theorem service_number (h : s.service n = some r) : r.number = n := by
  simpa using List.find?_some h

theorem effectiveRating_unlisted (h : s.service n = none) : s.effectiveRating n = none := by
  rw [State.effectiveRating, h]

theorem effectiveRating_titled {t : Title} (h : s.service n = some r) (ht : (s.titleOf n).bind s.titleRecord = some t) :
    s.effectiveRating n = some (max (s.baseRating r) t.rating) := by
  simp only [State.effectiveRating, h, ht]

theorem effectiveRating_untitled (h : s.service n = some r) (ht : (s.titleOf n).bind s.titleRecord = none) :
    s.effectiveRating n = some (s.baseRating r) := by
  simp only [State.effectiveRating, h, ht]

/-- The base is the fresh descriptor rating where the policy reads descriptors and there is one. -/
theorem baseRating_described {d : Nat} (h : s.service n = some r) (hs : s.cur.policy.source = .descriptor)
    (hd : s.descriptorRatingOf n = some d) : s.baseRating r = d := by
  rw [State.baseRating, hs, service_number h, hd]
  rfl

theorem baseRating_default (h : s.service n = some r)
    (hd : s.cur.policy.source = .descriptor → s.descriptorRatingOf n = none) : s.baseRating r = r.rating := by
  rw [State.baseRating]
  split
  case h_1 hs => rw [service_number h, hd hs]; rfl
  case h_2 => rfl

theorem locked_unlisted (o : Screen) (h : s.service n = none) : s.locked n o = false := by
  rw [State.locked, effectiveRating_unlisted h]

theorem covered_iff (s : State) (o : Screen) :
    s.covered o = true ↔ s.lock.room ≠ none ∨ s.lock.screens.get o ≠ none := by
  simp [State.covered, Option.isSome_iff_ne_none]

theorem locked_iff {e : Nat} (o : Screen) (h : s.effectiveRating n = some e) :
    s.locked n o = true ↔ s.cur.lock.ceiling < e ∧
      (¬ (s.lock.room ≠ none ∨ s.lock.screens.get o ≠ none) ∨ e = 5 ∧ s.cur.lock.barred = true) := by
  rw [State.locked, h, ← covered_iff]
  simp

end

/-! ## The access stage (R82, R136) -/

theorem purchaseOf_isSome_iff (s : State) (t : Nat) :
    (s.purchaseOf t).isSome = true ↔ ∃ p ∈ s.cur.purchases, p.title = t := by
  simp [State.purchaseOf]

section

variable {s : State} {n : Nat} {r : Service} {terms : MeterTerms} {time : PTime}

theorem access_untitled (hk : r.kind = .film) (ht : s.titleOf n = none) : s.access n r = (s, .refuse .unpaid) := by
  simp only [State.access, hk, ht]

theorem access_titled {t : Nat} (hk : r.kind = .film) (ht : s.titleOf n = some t) :
    s.access n r = (s,
      if ∃ p ∈ s.cur.purchases, p.title = t then .pass .purchase
      else if (s.cur.room.state = .occupied ∧ s.room.checkOut = none) ∧ s.exhausted t = false then .pass .preview
      else .refuse .unpaid) := by
  simp only [State.access, hk, ht, purchaseOf_isSome_iff, Bool.and_eq_true, Bool.not_eq_true', occupied_iff]

/-- A METERED service asks for an occupied room and property time that is set. -/
theorem access_unready (hk : r.kind = .metered terms)
    (h : ¬ (s.cur.room.state = .occupied ∧ s.room.checkOut = none) ∨ s.time.property = none) :
    s.access n r = (s, .refuse .unpaid) := by
  rw [← occupied_iff] at h
  simp only [State.access, hk]
  split
  case h_1 time ht => exact if_neg (h.resolve_right (by simp [ht]))
  case h_2 => rfl

theorem access_metered (hk : r.kind = .metered terms) (ho : s.cur.room.state = .occupied ∧ s.room.checkOut = none)
    (ht : s.time.property = some time) : s.access n r = s.askMeter n terms time := by
  simp only [State.access, hk, ht, (occupied_iff s).2 ho, if_true]

/-- Steps 1 and 2 of R136: a session of the service stands. -/
theorem askMeter_standing {x : Session} (hs : s.session n = some x) :
    s.askMeter n terms time = (s,
      if x.closing = none then .pass .metered
      else if x.closing = some .limit then .refuse .limit
      else .refuse .journalFull) := by
  rw [State.askMeter, hs]
  dsimp only
  split
  case h_1 hopen => rw [if_pos hopen]
  case h_2 hlimit => simp [hlimit]
  case h_3 cause hother hclosing =>
    have hlimit : some cause ≠ some CloseCause.limit := fun h => hother (Option.some.inj h)
    rw [hclosing, if_neg (Option.some_ne_none cause), if_neg hlimit]

/-- With the meter table full a session that is idle and open is evicted, the oldest, unless an eviction is under
way. -/
theorem askMeter_full (hs : s.session n = none) (hm : 4 ≤ s.cur.meter.length) :
    s.askMeter n terms time = (if s.closingWith .eviction then s else s.closeOldest .eviction (·.idle),
      .refuse .journalFull) := by
  rw [State.askMeter, hs]
  dsimp only
  rw [if_pos hm]
  split_ifs
  all_goals rfl

/-- With room in the meter table the journal needs a slot for the session's record. -/
theorem askMeter_noSlot (hs : s.session n = none) (hm : s.cur.meter.length < 4) (hslot : s.freeSlots = 0) :
    s.askMeter n terms time = (s, .refuse .journalFull) := by
  simp only [State.askMeter, hs, if_neg (Nat.not_le.2 hm), if_pos hslot]

/-- What is committed with the first block of a session and its tax (R133, R136). -/
def State.committedOpening (s : State) (n : Nat) (terms : MeterTerms) : Nat :=
  let net := blockNet terms (s.daySpendOf n)
  s.committed + (net + taxOf net s.cur.rates.tax)

theorem openingFits_iff (s : State) (n : Nat) (terms : MeterTerms) :
    s.openingFits n terms = true ↔ ¬ s.cur.room.limit < s.committedOpening n terms := by
  simp [State.openingFits, State.withinLimit, State.committedOpening]

theorem askMeter_overLimit (hs : s.session n = none) (hm : s.cur.meter.length < 4) (hslot : s.freeSlots ≠ 0)
    (hover : s.cur.room.limit < s.committedOpening n terms) :
    s.askMeter n terms time = (s, .refuse .limit) := by
  have hfits : ¬ s.openingFits n terms = true := fun h => (openingFits_iff s n terms).1 h hover
  simp only [State.askMeter, hs, if_neg (Nat.not_le.2 hm), if_neg hslot, if_neg hfits]

theorem askMeter_opens (hs : s.session n = none) (hm : s.cur.meter.length < 4) (hslot : s.freeSlots ≠ 0)
    (hfits : ¬ s.cur.room.limit < s.committedOpening n terms) :
    s.askMeter n terms time = (s.openSession n time, .pass .metered) := by
  simp only [State.askMeter, hs, if_neg (Nat.not_le.2 hm), if_neg hslot, if_pos ((openingFits_iff s n terms).2 hfits)]

theorem closeOldest_eviction_none (h : ∀ x ∈ s.cur.meter, ¬ (x.idle = true ∧ x.closing = none)) :
    s.closeOldest .eviction (·.idle) = s :=
  closeOldest_none fun x hx hclose => h x hx (by simpa using hclose)

end

/-- Settles O19: the small questions of a verdict, and the access stage kind by kind. -/
theorem lockAndAccessJudgeTheService : Obligations.LockAndAccessJudgeTheService := by
  refine ⟨fun s t => ⟨fun before p after => exhausted_held, exhausted_unheld, freeSlots_eq s⟩,
    fun s n o => ⟨fun h => ⟨effectiveRating_unlisted h, locked_unlisted o h⟩, fun r hr => ?_⟩, fun n r s => ?_⟩
  · intro base effective covered
    have hbase : s.baseRating r = base := by
      unfold base
      split
      case h_1 d hs hd => exact baseRating_described hr hs hd
      case h_2 h => exact baseRating_default hr fun hs => Option.eq_none_iff_forall_ne_some.2 fun d => h d hs
    have heffective : s.effectiveRating n = some effective := by
      unfold effective
      split
      case h_1 t ht => rw [effectiveRating_titled hr ht, hbase]
      case h_2 ht => rw [effectiveRating_untitled hr ht, hbase]
    exact ⟨heffective, locked_iff o heffective⟩
  · intro occupied
    split
    case h_1 hk => simp only [State.access, hk]
    case h_2 hk => simp only [State.access, hk]
    case h_3 hk => exact ⟨access_untitled hk, fun t => access_titled hk⟩
    case h_4 terms hk =>
      refine ⟨access_unready hk, fun time ho ht => ?_⟩
      rw [access_metered hk ho ht]
      refine ⟨fun x => askMeter_standing, fun hs hm => ?_, fun hs hm => ?_⟩
      · intro idle evicting
        rw [askMeter_full hs hm]
        refine ⟨fun h => ?_, fun before x after he hl hbefore hx => ?_⟩
        · split_ifs
          case pos => rfl
          case neg he =>
            rw [closeOldest_eviction_none (h.resolve_left (he ∘ (closingWith_iff s _).2))]
        · rw [if_neg (he ∘ (closingWith_iff s _).1), closeOldest_some hl]
          · exact fun y hy hclose => hbefore y hy (by simpa using hclose)
          · simpa using hx
      · intro net committed
        split
        case isTrue hslot => exact askMeter_noSlot hs hm hslot
        case isFalse hslot =>
          split
          case isTrue hover => exact askMeter_overLimit hs hm hslot hover
          case isFalse hfits => exact askMeter_opens hs hm hslot hfits

end Sys2Proof.Machine
end

section
/-! PROOF. The Rating Lock's messages, the completions of the writes they begin, and what begins once the lock is free
of a write (R102, R103, R105, R109, R110; O24). -/

namespace Sys2Proof.Machine

/-! ## A message the Rating Lock takes (R102) -/

theorem takeLockMessage_decoder (m : MsgBody) (s : State) : (s.takeLockMessage m).decoder = s.decoder := by
  unfold State.takeLockMessage
  split
  case h_1 | h_2 | h_3 =>
    split
    all_goals rfl
  case h_4 => rfl

/-- The Rating Lock, not busy and with no message waiting, takes a message as it arrives. -/
theorem exec_takesLockMessage {c : Instr} {t : Nat} {k : MsgKind}
    (hc : ∀ s, exec c s = occurs t (·.dispatch k .receiveLock) s) {s : State} {scope : Scope} {issue : Nat}
    {body : MsgBody} (ha : Awaits s scope issue body) (hk : body.kind = k) (hs : s.lockSettled = true) :
    exec c s =
      .next (((s.receiving scope issue body t).takeLockMessage body).judgeHanded s.decoder.handed) := by
  rw [hc, occurs_powered ha.powered, dispatch_receiveLock t s scope issue body ha hk hs, takeLockMessage_decoder]
  rfl

/-! ## The completions (R103, R105) -/

section

variable {t : Nat} {s : State}

theorem exec_ceilingWriteComplete {c : Nat} (hp : s.power ≠ .off) (hw : s.lock.write = some (.ceiling c)) :
    let written := (s.atInstant t).durableLock fun l => { l with ceiling := c }
    exec (.ceilingWriteComplete t) s = .next (written.rerunAll.judgeLapses fun _ => true).lockFreed := by
  rw [show exec (.ceilingWriteComplete t) s = execCeilingWriteComplete t s from rfl, execCeilingWriteComplete,
    occurs_powered hp]
  simp only [show (s.atInstant t).lock.write = some (.ceiling c) from hw]

theorem exec_barWriteComplete {on : Bool} (hp : s.power ≠ .off) (hw : s.lock.write = some (.bar on)) :
    exec (.barWriteComplete t) s = .next
      ((s.atInstant t).durableLock fun l => { l with barred := on }).rerunAll.lockFreed := by
  rw [show exec (.barWriteComplete t) s = execBarWriteComplete t s from rfl, execBarWriteComplete, occurs_powered hp]
  simp only [show (s.atInstant t).lock.write = some (.bar on) from hw]

theorem exec_pinResetWriteComplete {pin : Option Nat} (hp : s.power ≠ .off)
    (hw : s.lock.write = some (.pinReset pin)) :
    let written := (s.atInstant t).durableLock fun l =>
      { l with pin := pin, failures := 0, lockouts := 0, running := false }
    exec (.pinResetWriteComplete t) s = .next (written.lockoutEnded (s.atInstant t)).lockFreed := by
  rw [show exec (.pinResetWriteComplete t) s = execPinResetWriteComplete t s from rfl, execPinResetWriteComplete,
    occurs_powered hp]
  simp only [show (s.atInstant t).lock.write = some (.pinReset pin) from hw]

/-! ## What begins once the lock is free (R102, R109; logs 12, 51) -/

theorem ownLockBusy_of_free (h : s.lockBusy = false) : s.ownLockBusy = false := by
  simp only [State.lockBusy, Bool.or_eq_false_iff] at h
  exact h.1.1

theorem lockFreed_waiting {w : RoomWrite} (hb : s.lockBusy = false) (hw : s.room.write = some ⟨w, false⟩) :
    s.lockFreed = { s with room := { s.room with write := some ⟨w.latch s.cur.policy.ceiling, true⟩ } } := by
  simp only [State.lockFreed, hb, hw, State.beginRoomWrite, ownLockBusy_of_free hb, Bool.and_false, Bool.not_false]
  rfl

theorem lockFreed_alone (hb : s.lockBusy = false) (hw : ∀ w, s.room.write ≠ some ⟨w, false⟩) :
    s.lockFreed =
      if s.lock.clearOwed then
        { s with lock := { s.lock with clearOwed := false, write := some .lockoutClear } }
      else s := by
  rw [State.lockFreed, if_neg (by simp [hb])]
  split
  case h_1 w h => exact absurd h (hw w)
  case h_2 => rfl

end

/-- Settles O24: the three messages, their writes' completions, and the freed lock. -/
theorem lockMessagesTakeEffectAtTheirWritesCompletion :
    Obligations.LockMessagesTakeEffectAtTheirWritesCompletion := by
  refine ⟨fun t s scope issue body ha hs => ⟨?_, ?_, ?_⟩, fun t s w hp hw => ⟨?_, ?_, ?_⟩,
    fun s hb => ⟨fun w => lockFreed_waiting hb, lockFreed_alone hb⟩⟩
  · rintro pin rfl
    exact exec_takesLockMessage (c := .pinReset t) (fun _ => rfl) ha rfl hs
  · rintro c rfl
    exact exec_takesLockMessage (c := .setCeiling t) (fun _ => rfl) ha rfl hs
  · rintro on rfl
    exact exec_takesLockMessage (c := .bar t) (fun _ => rfl) ha rfl hs
  · rintro c rfl
    exact ⟨_, reran_rerun _ _, exec_ceilingWriteComplete hp hw⟩
  · rintro on rfl
    exact ⟨_, reran_rerun _ _, exec_barWriteComplete hp hw⟩
  · rintro pin rfl
    exact exec_pinResetWriteComplete hp hw

end Sys2Proof.Machine
end

section
/-! PROOF. UNLOCK and SET_PIN: their checks in order, the grant of an unlock, and the completions of the writes they
begin (R106 to R108; O25, O26). -/

namespace Sys2Proof.Machine

/-! ## Scopes and grants (R107) -/

theorem exists_screen {n : Nat} (h : 1 ≤ n ∧ n ≤ 4) : ∃ o : Screen, n = o.val + 1 :=
  ⟨⟨n - 1, by omega⟩, by dsimp only; omega⟩

/-- The scope of an UNLOCK or RELOCK is well formed: ROOM, or SCREEN with a screen's number. -/
def ScopeFormed (code screen : Nat) : Prop := code = 1 ∨ code = 0 ∧ 1 ≤ screen ∧ screen ≤ 4

theorem scopeOf_screen (o : Screen) : scopeOf 0 (o.val + 1) = some (some o) := by
  rw [scopeOf, screenOfNat_screen]
  rfl

theorem scopeOf_formed {code screen : Nat} (h : ScopeFormed code screen) :
    ∃ scope, scopeOf code screen = some scope ∧ scope.isNone = (code == 1) := by
  rcases h with rfl | ⟨rfl, hs⟩
  · exact ⟨none, rfl, rfl⟩
  · obtain ⟨o, rfl⟩ := exists_screen hs
    exact ⟨some o, scopeOf_screen o, rfl⟩

theorem scopeOf_malformed {code screen : Nat} (h : ¬ ScopeFormed code screen) : scopeOf code screen = none := by
  unfold ScopeFormed at h
  unfold scopeOf
  split
  case h_1 => rw [screenOfNat_none (by omega)]; rfl
  case h_2 => exact absurd (.inl rfl) h
  case h_3 => rfl

/-- A grant sets the unlock, and every verdict is run. -/
theorem grant_eq {room : Bool} {screen : Nat} (s : State) (h : room = true ∨ 1 ≤ screen ∧ screen ≤ 4) :
    s.grant room screen =
      ({ s with lock := s.lock.granted room screen s.now s.cur.policy } : State).rerunAll := by
  cases room with
  | true => rfl
  | false =>
    obtain ⟨o, rfl⟩ := exists_screen (h.resolve_left Bool.false_ne_true)
    rw [State.grant, if_neg Bool.false_ne_true, screenOfNat_screen]
    fin_cases o <;> rfl

/-! ## The checks of UNLOCK (R107) -/

section

variable {s : State} {room : Bool} {screen pin : Nat}

theorem tryUnlock_lockedOut (h : s.cur.lock.running = true) : s.tryUnlock room screen pin = s.replyLockedOut :=
  if_pos h

theorem tryUnlock_noPin (h : s.cur.lock.running = false) (hp : s.cur.lock.pin = none) :
    s.tryUnlock room screen pin = s.reply .noPin [] := by
  simp [State.tryUnlock, h, hp]

theorem tryUnlock_wrong {held : Nat} (h : s.cur.lock.running = false) (hp : s.cur.lock.pin = some held)
    (hpin : held ≠ pin) : s.tryUnlock room screen pin = s.beginFailure := by
  simp [State.tryUnlock, h, hp, hpin]

theorem tryUnlock_written (h : s.cur.lock.running = false) (hp : s.cur.lock.pin = some pin)
    (hf : s.cur.lock.failures ≠ 0) :
    s.tryUnlock room screen pin = (s.beginLockWrite (.unlock room screen)).executing := by
  simp [State.tryUnlock, h, hp, hf]

theorem tryUnlock_granted (h : s.cur.lock.running = false) (hp : s.cur.lock.pin = some pin)
    (hf : s.cur.lock.failures = 0) :
    s.tryUnlock room screen pin = (s.grant room screen).reply .ok (s.unlockFields room screen) := by
  simp [State.tryUnlock, h, hp, hf]

end

section

variable {t : Nat} {s : State} {r : Request}

theorem exec_unlock_refused (hb : Begins 0x14 .guest s r)
    (h : ¬ ScopeFormed (field 0 1 r.body) (field 1 1 r.body) ∨ pinOfBytes (fieldBytes 2 4 r.body) = none) :
    exec (.unlock t) s = .next ((s.atInstant t).reply .badArgument []) := by
  rw [show exec (.unlock t) s = execUnlock t s from rfl, execUnlock, occurs_powered hb.powered, request_begins t hb]
  split
  case h_1 hscope hpin =>
    rcases h with h | h
    · rw [scopeOf_malformed h] at hscope
      contradiction
    · rw [h] at hpin
      contradiction
  case h_2 => rfl

theorem exec_unlock_taken {pin : Nat} (hb : Begins 0x14 .guest s r)
    (hscope : ScopeFormed (field 0 1 r.body) (field 1 1 r.body))
    (hpin : pinOfBytes (fieldBytes 2 4 r.body) = some pin) :
    exec (.unlock t) s =
      .next ((s.atInstant t).tryUnlock (field 0 1 r.body == 1) (field 1 1 r.body) pin) := by
  obtain ⟨scope, hs, hroom⟩ := scopeOf_formed hscope
  rw [show exec (.unlock t) s = execUnlock t s from rfl, execUnlock, occurs_powered hb.powered, request_begins t hb]
  simp only [hs, hpin, hroom]

/-- The fields of the OK reply, by the code of the scope. -/
theorem unlockFields_of_code {code screen : Nat} (h : ScopeFormed code screen) :
    s.unlockFields (code == 1) screen = byte code :: byte screen :: leBytes 4
      (if code = 1 then s.cur.policy.roomUnlockHours * 3600 else s.cur.policy.unlockMinutes * 60) := by
  rcases h with rfl | ⟨rfl, -⟩
  all_goals rfl

/-! ## The checks of SET_PIN (R106) -/

theorem exec_setPin_refused (hb : Begins 0x15 .guest s r)
    (h : ∀ o n, carriedPin (field 0 1 r.body) (fieldBytes 1 4 r.body) = some o →
      carriedPin (field 5 1 r.body) (fieldBytes 6 4 r.body) ≠ some (some n)) :
    exec (.setPin t) s = .next ((s.atInstant t).reply .badArgument []) := by
  rw [show exec (.setPin t) s = execSetPin t s from rfl, execSetPin, occurs_powered hb.powered, request_begins t hb]
  split
  case h_1 hold hnew => exact absurd hnew (h _ _ hold)
  case h_2 => rfl

theorem exec_setPin_taken {o : Option Nat} {n : Nat} (hb : Begins 0x15 .guest s r)
    (hold : carriedPin (field 0 1 r.body) (fieldBytes 1 4 r.body) = some o)
    (hnew : carriedPin (field 5 1 r.body) (fieldBytes 6 4 r.body) = some (some n)) :
    exec (.setPin t) s = .next ((s.atInstant t).trySetPin o n) := by
  rw [show exec (.setPin t) s = execSetPin t s from rfl, execSetPin, occurs_powered hb.powered, request_begins t hb]
  simp only [hold, hnew]

theorem trySetPin_lockedOut {o : Option Nat} {n : Nat} (h : s.cur.lock.running = true) :
    s.trySetPin o n = s.replyLockedOut := if_pos h

theorem trySetPin_judged {o : Option Nat} {n : Nat} (h : s.cur.lock.running = false) :
    s.trySetPin o n =
      if s.cur.lock.pin ≠ none ∧ s.cur.lock.pin ≠ o then s.beginFailure
      else (s.beginLockWrite (.setPin n)).executing := by
  simp only [State.trySetPin, h, Option.isSome_iff_ne_none, Bool.false_eq_true, if_false]

end

/-- Settles O25: the two requests, refused by their form, and judged by the checks that read the lock. -/
theorem unlockAndSetPinAreJudgedByTheirChecks : Obligations.UnlockAndSetPinAreJudgedByTheirChecks := by
  refine ⟨fun t s r hb => ⟨exec_unlock_refused hb, fun pin hformed hpin => ?_⟩,
    fun t s r hb => ⟨fun h => exec_setPin_refused hb ?_, fun o n hold hnew => ?_⟩⟩
  · rw [exec_unlock_taken hb hformed hpin]
    refine ⟨fun hrun => by rw [tryUnlock_lockedOut (s := s.atInstant t) hrun]; rfl, fun hrun => ⟨fun hnone => ?_, ?_⟩⟩
    · rw [tryUnlock_noPin (s := s.atInstant t) hrun hnone]
    · intro held hheld
      refine ⟨fun hne => ?_, ?_, ?_⟩
      · rw [tryUnlock_wrong (s := s.atInstant t) hrun hheld hne]
        rfl
      · rintro rfl hf
        rw [tryUnlock_written (s := s.atInstant t) hrun hheld hf]
        rfl
      · rintro rfl hf
        have hgrant : (field 0 1 r.body == 1) = true ∨ 1 ≤ field 1 1 r.body ∧ field 1 1 r.body ≤ 4 :=
          hformed.imp beq_iff_eq.2 And.right
        refine ⟨_, reran_rerun _ _, ?_⟩
        rw [tryUnlock_granted (s := s.atInstant t) hrun hheld hf, unlockFields_of_code hformed, grant_eq _ hgrant]
        rfl
  · rintro o n hold hnew
    rcases h with h | h | h
    · cases hold.symm.trans h
    · cases hnew.symm.trans h
    · cases hnew.symm.trans h
  · rw [exec_setPin_taken hb hold hnew]
    refine ⟨fun hrun => by rw [trySetPin_lockedOut (s := s.atInstant t) hrun]; rfl, fun hrun => ?_⟩
    rw [trySetPin_judged (s := s.atInstant t) hrun]
    exact apply_ite Host.Outcome.next _ _ _

/-! ## The completions (R106 to R108) -/

/-- A failure, by the count before it. -/
theorem LockRecord.fail_eq (l : LockRecord) :
    l.fail =
      if l.failures = 0 then { l with failures := 1 }
      else if l.failures = 1 then { l with failures := 2 }
      else { l with failures := 0, lockouts := min (l.lockouts + 1) 255, running := true } := by
  obtain h | h | h : l.failures = 0 ∨ l.failures = 1 ∨ 2 ≤ l.failures := by omega
  · simp [LockRecord.fail, h]
  · simp [LockRecord.fail, h]
  · rw [LockRecord.fail, if_neg (by omega), if_neg (by omega), if_neg (by omega)]

/-- The minutes of a lockout, by the lockout count it makes (R108). -/
def lockoutMinutes (count : Nat) : Nat :=
  if count = 1 then 15 else if count = 2 then 30 else if count = 3 then 60 else 120

theorem lockoutDuration_minutes {count : Nat} (h : count ≠ 0) :
    lockoutDuration count = lockoutMinutes count * 60000 := by
  have hone : count ≤ 1 ↔ count = 1 := by omega
  rw [lockoutDuration_eq]
  simp only [hone, lockoutMinutes]

section

variable {t : Nat} {s : State}

theorem exec_pinFailureWriteComplete (hp : s.power ≠ .off) (hw : s.lock.write = some .failure) :
    exec (.pinFailureWriteComplete t) s = .next (
      let failed := (s.atInstant t).durableLock .fail
      if s.cur.lock.failures < 2 then (failed.replyBadPin false).lockFreed
      else (failed.startLockout.replyBadPin true).lockFreed) := by
  rw [show exec (.pinFailureWriteComplete t) s = execPinFailureWriteComplete t s from rfl,
    execPinFailureWriteComplete, occurs_powered hp]
  simp only [show (s.atInstant t).lock.write = some .failure from hw]
  rfl

theorem exec_setPinWriteComplete {pin : Nat} (hp : s.power ≠ .off) (hw : s.lock.write = some (.setPin pin)) :
    exec (.setPinWriteComplete t) s = .next
      (((s.atInstant t).durableLock fun l => { l with pin := some pin, failures := 0 }).reply .ok []).lockFreed := by
  rw [show exec (.setPinWriteComplete t) s = execSetPinWriteComplete t s from rfl, execSetPinWriteComplete,
    occurs_powered hp]
  simp only [show (s.atInstant t).lock.write = some (.setPin pin) from hw]

theorem exec_unlockWriteComplete {room : Bool} {screen : Nat} (hp : s.power ≠ .off)
    (hw : s.lock.write = some (.unlock room screen)) :
    exec (.unlockWriteComplete t) s = .next
      ((((s.atInstant t).durableLock fun l => { l with failures := 0 }).grant room screen).reply .ok
        (s.unlockFields room screen)).lockFreed := by
  rw [show exec (.unlockWriteComplete t) s = execUnlockWriteComplete t s from rfl, execUnlockWriteComplete,
    occurs_powered hp]
  simp only [show (s.atInstant t).lock.write = some (.unlock room screen) from hw]
  rfl

theorem exec_lockoutClearWriteComplete (hp : s.power ≠ .off) (hw : s.lock.write = some .lockoutClear) :
    exec (.lockoutClearWriteComplete t) s = .next
      ((s.atInstant t).endLockWrite.onStore (.onLock fun l => { l with running := false })).lockFreed := by
  rw [show exec (.lockoutClearWriteComplete t) s = execLockoutClearWriteComplete t s from rfl,
    execLockoutClearWriteComplete, occurs_powered hp]
  simp only [show (s.atInstant t).lock.write = some .lockoutClear from hw]

theorem replyBadPin_counted {failures : Nat} (h : s.cur.lock.failures = failures) :
    s.replyBadPin false = s.reply .badPin (byte failures :: [0xFF, 0xFF, 0xFF, 0xFF]) := by
  rw [State.replyBadPin, h]
  rfl

theorem replyBadPin_lockedOut {count : Nat} (hf : s.cur.lock.failures = 0) (hc : s.cur.lock.lockouts = count)
    (h0 : count ≠ 0) : s.replyBadPin true = s.reply .badPin (0 :: leBytes 4 (lockoutMinutes count * 60)) := by
  have hseconds : lockoutMinutes count * 60000 / 1000 = lockoutMinutes count * 60 := by omega
  rw [State.replyBadPin, hf, hc, lockoutDuration_minutes h0, if_pos rfl, hseconds]
  rfl

theorem startLockout_eq {count : Nat} (hc : s.cur.lock.lockouts = count) (h0 : count ≠ 0) :
    s.startLockout = ({ s with lock := { s.lock with
      lockoutAt := some (s.now + lockoutMinutes count * 60000) } } : State).raise .lock := by
  rw [State.startLockout, hc, lockoutDuration_minutes h0]
  rfl

theorem LockRecord.fail_counts {l : LockRecord} (h : l.failures < 2) : l.fail.failures = l.failures + 1 := by
  rw [LockRecord.fail, if_pos h]

theorem LockRecord.fail_locksOut {l : LockRecord} (h : ¬ l.failures < 2) :
    l.fail.failures = 0 ∧ l.fail.lockouts = min (l.lockouts + 1) 255 := by
  rw [LockRecord.fail, if_neg h]
  exact ⟨rfl, rfl⟩

end

/-- Settles O26: a failure that counts or locks out, the new PIN, the grant, and the cleared lockout flag. -/
theorem pinWritesTakeEffectAtCompletion : Obligations.PinWritesTakeEffectAtCompletion := by
  intro t s w hp hw now written free failed count minutes locked
  refine ⟨?_, ?_, ?_, ?_⟩
  · rintro rfl
    have hfailed : failed = LockRecord.fail := funext fun l => (LockRecord.fail_eq l).symm
    rw [exec_pinFailureWriteComplete hp hw]
    congr 1
    dsimp only
    split_ifs with hf
    · rw [replyBadPin_counted (LockRecord.fail_counts hf), hfailed]
      rfl
    · have hout := LockRecord.fail_locksOut hf
      have hcount : count ≠ 0 := by simp only [count]; omega
      rw [startLockout_eq hout.2 hcount, replyBadPin_lockedOut hout.1 hout.2 hcount]
      simp only [locked, hfailed]
      rfl
  · rintro pin rfl
    exact exec_setPinWriteComplete hp hw
  · rintro room screen rfl hscreen
    refine ⟨_, reran_rerun _ _, ?_⟩
    rw [exec_unlockWriteComplete hp hw, grant_eq _ hscreen]
    rfl
  · rintro rfl
    exact exec_lockoutClearWriteComplete hp hw

end Sys2Proof.Machine
end

section
/-! PROOF. How lockouts and unlocks end: the deadline of a lockout, the end instant of an unlock, the deferred lapses,
and RELOCK (R109 to R111; O27). -/

namespace Sys2Proof.Machine

/-! ## What an unlock covers, and what an output shows (R101, R110) -/

theorem mem_coveredBy (which : Option Screen) (o : Screen) : o ∈ coveredBy which ↔ which = none ∨ which = some o := by
  cases which with
  | none => simpa [coveredBy] using show o ∈ allScreens by fin_cases o <;> decide
  | some p => simp [coveredBy, eq_comm]

theorem aboveCeiling_iff (s : State) (n : Nat) :
    s.aboveCeiling n = true ↔ ∃ e, s.effectiveRating n = some e ∧ s.cur.lock.ceiling < e := by
  unfold State.aboveCeiling
  split
  case h_1 e he => simp [he]
  case h_2 he => simp [he]

theorem showsAbove_iff (s : State) (o : Screen) :
    s.showsAbove o = true ↔ ∃ b n e, (s.output o).shown = .playing b ∧ (s.output o).shownService = some n ∧
      s.effectiveRating n = some e ∧ s.cur.lock.ceiling < e := by
  unfold State.showsAbove
  split
  case h_1 b n hshown hservice => simp [hshown, hservice, aboveCeiling_iff]
  case h_2 h =>
    simp only [Bool.false_eq_true, false_iff]
    rintro ⟨b, n, e, hshown, hservice, -⟩
    exact h b n hshown hservice

/-- The lock with an unlock set, or made absent: a screen's, or with none the room's. -/
def Lock.withUnlock (l : Lock) (u : Option Unlock) : Option Screen → Lock
  | none => { l with room := u }
  | some o => { l with screens := l.screens.set u o }

theorem dropUnlock_eq (which : Option Screen) (s : State) :
    s.dropUnlock which = { s with lock := s.lock.withUnlock none which } := by
  cases which <;> rfl

theorem deferUnlock_eq {which : Option Screen} {s : State} {u : Unlock} (h : s.unlockOf which = some u) :
    s.deferUnlock which = { s with lock := s.lock.withUnlock (some { u with deferred := true }) which } := by
  cases which with
  | none =>
    have h : s.lock.room = some u := h
    simp only [State.deferUnlock, State.onLock, h, Option.map_some]
    rfl
  | some o =>
    have h : s.lock.screens.get o = some u := h
    simp only [State.deferUnlock, State.onLock, h, Option.map_some]
    rfl

theorem unlockOf_dropUnlock (s : State) (which other : Option Screen) :
    (s.dropUnlock which).unlockOf other = if other = which then none else s.unlockOf other := by
  cases which with
  | none => cases other <;> rfl
  | some o =>
    cases other with
    | none => rfl
    | some p =>
      by_cases h : p = o
      · simp [h, State.unlockOf, State.dropUnlock]
      · simp [h, State.unlockOf, State.dropUnlock, Four.get_set_other _ _ h]

/-! ## The deadline of a lockout (R109) -/

/-- The lockout is over in use; its clearing is written at once, or owed while the lock is busy. -/
theorem endLockout_eq (s : State) :
    s.endLockout =
      let ended (l : Lock) : State :=
        { s with cur := { s.cur with lock := { s.cur.lock with running := false } }, lock := l }
      if s.lockBusy then (ended { s.lock with lockoutAt := none, clearOwed := true }).raise .lock
      else (ended { s.lock with lockoutAt := none, write := some .lockoutClear }).raise .lock := rfl

theorem exec_lockoutDeadline {t d : Nat} {s : State} (hp : s.power ≠ .off) (hd : s.lock.lockoutAt = some d) :
    exec (.lockoutDeadline t) s =
      .next (if max s.time.now t < d then s.atInstant t else (s.atInstant t).endLockout) := by
  have hdue : due (s.atInstant t).lock.lockoutAt (s.atInstant t) = !decide (max s.time.now t < d) := by
    rw [show (s.atInstant t).lock.lockoutAt = some d from hd, ← decide_not]
    exact decide_eq_decide.2 Nat.not_lt.symm
  rw [show exec (.lockoutDeadline t) s = execLockoutDeadline t s from rfl, execLockoutDeadline, occurs_powered hp, hdue]
  by_cases h : max s.time.now t < d <;> simp [h]

/-! ## The end instant of an unlock (R110) -/

section

variable {t : Nat} {s : State} {which : Option Screen} {u : Unlock}

theorem exec_unlockEndInstant (hp : s.power ≠ .off) (hu : s.unlockOf which = some u) :
    exec (.unlockEndInstant t which) s = .next (
      if u.deferred = false ∧ u.endAt ≤ max s.time.now t then (s.atInstant t).endUnlock which
      else s.atInstant t) := by
  have hreached : reached u.endAt (s.atInstant t) = decide (u.endAt ≤ max s.time.now t) := rfl
  rw [show exec (.unlockEndInstant t which) s = execUnlockEndInstant t which s from rfl, execUnlockEndInstant,
    occurs_powered hp]
  simp only [show (s.atInstant t).unlockOf which = some u by cases which <;> exact hu, hreached, Bool.and_eq_true,
    Bool.not_eq_true', decide_eq_true_eq]

theorem endUnlock_defers (h : ∃ o, o ∈ coveredBy which ∧ s.showsAbove o = true) :
    s.endUnlock which = s.deferUnlock which :=
  if_pos (List.any_eq_true.2 h)

theorem endUnlock_lapses (h : ∀ o ∈ coveredBy which, ¬ s.showsAbove o = true) :
    s.endUnlock which = ((s.dropUnlock which).raise .lock).rerunAll :=
  if_neg (by simpa using h)

/-! ## Deferred lapses (R110) -/

theorem mem_lapsing_iff {concerned : Screen → Bool} :
    which ∈ s.lapsing concerned ↔ (∃ u, s.unlockOf which = some u ∧ u.deferred = true) ∧
      (∃ o ∈ coveredBy which, concerned o = true) ∧ ∀ o ∈ coveredBy which, ¬ s.showsAbove o = true := by
  have hjudged : which ∈ s.lapsing concerned ↔ s.lapses concerned (coveredBy which) (s.unlockOf which) = true := by
    cases which with
    | none => simp [State.lapsing, State.unlockOf, coveredBy]
    | some o =>
      have hall : o ∈ allScreens := by fin_cases o <;> decide
      simp [State.lapsing, State.unlockOf, coveredBy, hall]
  rw [hjudged]
  cases s.unlockOf which with
  | none => simp [State.lapses]
  | some u => simp [State.lapses, and_assoc]

/-- Judging the deferred lapses drops the unlocks that lapse, raises LOCK for each, and runs every verdict. -/
theorem judgeLapses_reran {concerned : Screen → Bool} (h : s.lapsing concerned ≠ []) :
    Reran allScreens
      (((s.lapsing concerned).foldl (fun s w => s.dropUnlock w) s).raiseTimes .lock (s.lapsing concerned).length)
      (s.judgeLapses concerned) := by
  rw [State.judgeLapses, if_neg h]
  exact reran_rerun _ _

theorem dropAll_onlyLock (gone : List (Option Screen)) (s : State) :
    gone.foldl (fun s w => s.dropUnlock w) s =
      { s with lock := (gone.foldl (fun s w => s.dropUnlock w) s).lock } := by
  induction gone generalizing s with
  | nil => rfl
  | cons w ws ih => rw [List.foldl_cons, ih]; rfl

theorem unlockOf_dropAll (gone : List (Option Screen)) (s : State) :
    (gone.foldl (fun s w => s.dropUnlock w) s).unlockOf which = if which ∈ gone then none else s.unlockOf which := by
  induction gone generalizing s with
  | nil => rfl
  | cons w ws ih =>
    rw [List.foldl_cons, ih, unlockOf_dropUnlock]
    by_cases h : which = w <;> simp [h]

end

/-! ## RELOCK (R111) -/

section

variable {t : Nat} {s : State} {r : Request}

theorem exec_relock_refused (hb : Begins 0x10 .everyMode s r)
    (h : ¬ ScopeFormed (field 0 1 r.body) (field 1 1 r.body)) :
    exec (.relock t) s = .next ((s.atInstant t).reply .badArgument []) := by
  rw [show exec (.relock t) s = execRelock t s from rfl, execRelock, occurs_powered hb.powered, request_begins t hb,
    scopeOf_malformed h]

theorem exec_relock_room (hb : Begins 0x10 .everyMode s r) (h : field 0 1 r.body = 1) :
    exec (.relock t) s = .next ((s.atInstant t).dropUnlocks.rerunAll.reply .ok []) := by
  rw [show exec (.relock t) s = execRelock t s from rfl, execRelock, occurs_powered hb.powered, request_begins t hb, h]
  rfl

theorem exec_relock_screen {o : Screen} (hb : Begins 0x10 .everyMode s r) (h : field 0 1 r.body = 0)
    (ho : field 1 1 r.body = o.val + 1) :
    exec (.relock t) s = .next (((s.atInstant t).dropUnlock (some o)).rerunAll.reply .ok []) := by
  rw [show exec (.relock t) s = execRelock t s from rfl, execRelock, occurs_powered hb.powered, request_begins t hb, h,
    ho, scopeOf_screen]

end

/-- Settles O27: a lockout's deadline, an unlock's end instant, the deferred lapses, and RELOCK. -/
theorem lockoutsAndUnlocksEnd : Obligations.LockoutsAndUnlocksEnd := by
  unfold Obligations.LockoutsAndUnlocksEnd
  intro showsAbove unlockOf setUnlock covers
  have hshows (s : State) (o : Screen) : showsAbove s o ↔ s.showsAbove o = true := (showsAbove_iff s o).symm
  have hunlock (s : State) (which : Option Screen) : unlockOf s which = s.unlockOf which := by cases which <;> rfl
  have hset (l : Lock) (u : Option Unlock) (which : Option Screen) : setUnlock l u which = l.withUnlock u which := by
    cases which <;> rfl
  have hcovers (which : Option Screen) (o : Screen) : covers which o ↔ o ∈ coveredBy which :=
    (mem_coveredBy which o).symm
  clear_value showsAbove unlockOf setUnlock covers
  simp only [hshows, hunlock, hset, hcovers]
  refine ⟨fun t d s hp hd => ?_, fun t s which u hp hu => ?_, fun s concerned => ?_,
    fun t s r hb => ⟨fun h => ?_, ?_, ?_⟩⟩
  · rw [exec_lockoutDeadline hp hd, endLockout_eq]
    rfl
  · refine ⟨_, exec_unlockEndInstant hp hu, fun h => ?_, fun hd he => ?_⟩
    · refine if_neg fun ⟨hd, he⟩ => ?_
      rcases h with h | h
      · exact absurd h (by simp [hd])
      · omega
    · rw [if_pos ⟨hd, he⟩]
      refine ⟨fun h => ?_, fun h => ?_⟩
      · have hu : (s.atInstant t).unlockOf which = some u := by cases which <;> exact hu
        rw [endUnlock_defers (s := s.atInstant t) h, deferUnlock_eq hu]
        rfl
      · rw [endUnlock_lapses (s := s.atInstant t) h, dropUnlock_eq]
        exact reran_rerun _ _
  · simp only [← mem_lapsing_iff]
    refine ⟨fun h => if_pos (List.eq_nil_iff_forall_not_mem.2 h), fun ⟨which, h⟩ => ?_⟩
    exact ⟨s.lapsing concerned, s.lapsing_nodup concerned, fun _ => Iff.rfl, _, dropAll_onlyLock _ s,
      fun _ => unlockOf_dropAll _ s, judgeLapses_reran (List.ne_nil_of_mem h)⟩
  · exact exec_relock_refused hb (by unfold ScopeFormed; omega)
  · exact fun h => ⟨_, exec_relock_room hb h, reran_rerun _ _⟩
  · exact fun o h ho => ⟨_, exec_relock_screen hb h ho, reran_rerun _ _⟩

end Sys2Proof.Machine
end

section
/-! PROOF. QUOTE, BUY and CANCEL: their checks in order, and the writes that BUY and CANCEL begin (R120, R122 to R126,
R132, R133; O30, O31). -/

namespace Sys2Proof.Machine

/-! ## The checks of a sale, one after another (R123) -/

section

variable {s : State} {o : Screen} {screen title : Nat} {time : PTime}

theorem checkSale_malformed (h : screen = 0 ∨ 4 < screen ∨ title = 0) :
    s.checkSale screen title = .refused .badArgument := by
  by_cases hs : screen = 0 ∨ 4 < screen
  · rw [State.checkSale, screenOfNat_none (by omega)]
  · obtain ⟨o, rfl⟩ := exists_screen (n := screen) (by omega)
    rw [State.checkSale, screenOfNat_screen]
    exact if_pos (by omega)

theorem checkSale_notOccupied (ht : title ≠ 0) (h : s.cur.room.state ≠ .occupied) :
    s.checkSale (o.val + 1) title = .refused .notOccupied := by
  simp [State.checkSale, screenOfNat_screen, ht, h]

theorem checkSale_timeUnset (ht : title ≠ 0) (h : s.cur.room.state = .occupied) (htime : s.time.property = none) :
    s.checkSale (o.val + 1) title = .refused .timeUnset := by
  simp [State.checkSale, screenOfNat_screen, ht, h, htime]

/-- Past checks 2 to 4 the service of the screen is judged. -/
theorem checkSale_occupied (ht : title ≠ 0) (h : s.cur.room.state = .occupied) (htime : s.time.property = some time) :
    s.checkSale (o.val + 1) title = s.checkFilm o title time := by
  simp [State.checkSale, screenOfNat_screen, ht, h, htime]

theorem checkFilm_unlisted (h : (s.output o).route.bind s.service = none) :
    s.checkFilm o title time = .refused .notFilm := by
  simp only [State.checkFilm, h]

theorem checkFilm_listed {v : Service} (h : (s.output o).route.bind s.service = some v) :
    s.checkFilm o title time =
      if v.kind ≠ .film then .refused .notFilm
      else if s.titleOf v.number ≠ some title then .refused .titleChanged
      else s.checkTitle o v.number title time := by
  simp only [State.checkFilm, h]

theorem checkTitle_unlisted {n : Nat} (h : s.titleRecord title = none) :
    s.checkTitle o n title time = .refused .noTitle := by
  simp only [State.checkTitle, h]

theorem checkTitle_listed {n : Nat} {x : Title} (h : s.titleRecord title = some x) :
    s.checkTitle o n title time =
      if ∃ p ∈ s.cur.purchases, p.title = title then .refused .alreadyOwned
      else if s.locked n o = true then .refused .locked
      else if s.cur.lock.barred = true ∧ s.effectiveRating n = some 5 then .refused .barred
      else .passed x time := by
  simp only [State.checkTitle, h, purchaseOf_isSome_iff, Bool.and_eq_true, beq_iff_eq]

theorem titleRecord_title {x : Title} (h : s.titleRecord title = some x) : x.title = title := by
  simpa using List.find?_some h

end

/-! ## What a sale comes to (R120, R132, R133, R148) -/

/-- The outcome of checks 11 to 13, with the limit test written out. -/
theorem saleOutcome_eq (s : State) (x : Title) :
    s.saleOutcome x =
      if s.cur.room.limit < s.committed + s.saleTotal x then .limit
      else if 0 < s.saleTotal x ∧ s.freeSlots = 0 then .journalFull
      else if 16 ≤ s.cur.purchases.length then .tableFull
      else .ok := by
  simp only [State.saleOutcome, State.withinLimit, decide_eq_false_iff_not, Nat.not_le]

/-- The purchase of a title made now, named by the title that was asked for. -/
theorem sale_eq (s : State) {x : Title} {title : Nat} (time : PTime) (h : x.title = title) :
    s.sale x time =
      ⟨title, s.cur.room.folio.getD 0, time, expiryOf time (s.windowOf x),
        purchaseNet x.price s.cur.room.count s.cur.rates, purchaseTax x.price s.cur.room.count s.cur.rates,
        s.saleTotal x, none, 0⟩ := by
  subst h
  rfl

/-! ## QUOTE and BUY (R122 to R124) -/

/-- The two requests that are judged by the checks of a sale, with their kinds. -/
def saleRequests : List ((Nat → Instr) × Nat) := [(Instr.quote, 0x11), (Instr.buy, 0x12)]

/-- One predicate for the statuses the checks refuse with, one for the title and property time that pass them. -/
def Checked.Holds (refused : Status → Prop) (passed : Title → PTime → Prop) : Checked → Prop
  | .refused st => refused st
  | .passed x time => passed x time

section

variable (refused : Status → Prop) (passed : Title → PTime → Prop)

theorem Checked.holds_refused (st : Status) : (Checked.refused st).Holds refused passed = refused st := rfl

theorem Checked.holds_passed (x : Title) (time : PTime) :
    (Checked.passed x time).Holds refused passed = passed x time := rfl

theorem Checked.holds_ite (p : Prop) [Decidable p] (k k' : Checked) :
    (if p then k else k').Holds refused passed = if p then k.Holds refused passed else k'.Holds refused passed :=
  apply_ite (Checked.Holds refused passed) p k k'

end

/-- The request is refused with a status. -/
def SaleRefused (c : (Nat → Instr) × Nat) (t : Nat) (s : State) (st : Status) : Prop :=
  exec (c.1 t) s = .next ((s.atInstant t).reply st [])

/-- What the request comes to past the checks: a QUOTE tells the outcome, which a BUY acts on. -/
def SalePassed (c : (Nat → Instr) × Nat) (t : Nat) (s : State) (title : Nat) (p : Purchase)
    (outcome : Status) : Prop :=
  if c.2 = 0x11 then
    exec (.quote t) s = .next ((s.atInstant t).reply .ok (ident title ++ amount p.net ++ amount p.tax ++
      amount p.total ++ timeField p.expiresAt ++ [byte outcome.code]))
  else if outcome ≠ .ok then SaleRefused c t s outcome
  else exec (.buy t) s = .next ((s.atInstant t).beginBuy p)

/-- QUOTE and BUY, begun, are judged by the same checks. -/
theorem exec_sale {c : (Nat → Instr) × Nat} {t : Nat} {s : State} {r : Request} (hc : c ∈ saleRequests)
    (hb : Begins c.2 .guest s r) :
    (s.checkSale (field 0 1 r.body) (field 1 2 r.body)).Holds (SaleRefused c t s)
      (fun x time => SalePassed c t s x.title (s.sale x time) (s.saleOutcome x)) := by
  have hat : (s.atInstant t).checkSale (field 0 1 r.body) (field 1 2 r.body) =
    s.checkSale (field 0 1 r.body) (field 1 2 r.body) := rfl
  simp only [saleRequests, List.mem_cons, List.not_mem_nil, or_false] at hc
  rcases hc with rfl | rfl
  · have hquote : exec (.quote t) s = execQuote t s := rfl
    rw [execQuote, occurs_powered hb.powered, request_begins t hb, hat] at hquote
    cases hk : s.checkSale (field 0 1 r.body) (field 1 2 r.body) with
    | refused st => rw [hk] at hquote; exact hquote
    | passed x time => rw [hk] at hquote; exact hquote
  · have hbuy : exec (.buy t) s = execBuy t s := rfl
    rw [execBuy, occurs_powered hb.powered, request_begins t hb, hat] at hbuy
    cases hk : s.checkSale (field 0 1 r.body) (field 1 2 r.body) with
    | refused st => rw [hk] at hbuy; exact hbuy
    | passed x time =>
      rw [hk] at hbuy
      refine ite_prop_iff_and.2 ⟨fun hne => hbuy.trans (congrArg _ (if_neg hne)), fun hok => ?_⟩
      exact hbuy.trans (congrArg _ (if_pos (not_not.1 hok)))

/-- Settles O30: each check in turn refuses or hands on to the next; past the tenth the charge and the outcome are
those of the purchase made now. -/
theorem quoteAndBuyAreJudgedByTheSameChecks : Obligations.QuoteAndBuyAreJudgedByTheSameChecks := by
  intro c hc t s r hb screen title refused
  have hjudged := exec_sale (t := t) hc hb
  refine ⟨fun h => ?_, fun o (ho : field 0 1 r.body = _) ht => ?_⟩
  · rw [checkSale_malformed h] at hjudged
    exact hjudged
  rw [ho] at hjudged
  refine ite_prop_iff_and.2 ⟨fun hvacant => ?_, fun hoccupied => ?_⟩
  · rw [checkSale_notOccupied ht hvacant] at hjudged
    exact hjudged
  have hoccupied := not_not.1 hoccupied
  cases htime : s.time.property with
  | none =>
    rw [checkSale_timeUnset ht hoccupied htime] at hjudged
    exact hjudged
  | some time =>
  rw [checkSale_occupied ht hoccupied htime] at hjudged
  cases hv : (s.output o).route.bind s.service with
  | none =>
    rw [checkFilm_unlisted hv] at hjudged
    exact hjudged
  | some v =>
  rw [checkFilm_listed hv] at hjudged
  cases hx : s.titleRecord title with
  | none =>
    rw [checkTitle_unlisted hx] at hjudged
    simp only [Checked.holds_ite, Checked.holds_refused] at hjudged
    exact hjudged
  | some x =>
    have hnamed := titleRecord_title hx
    rw [checkTitle_listed hx] at hjudged
    simp only [Checked.holds_ite, Checked.holds_refused, Checked.holds_passed, hnamed,
      sale_eq s time hnamed, saleOutcome_eq] at hjudged
    exact hjudged

/-! ## CANCEL (R125, R126) -/

section

variable {t : Nat} {s : State} {r : Request} {p : Purchase}

theorem exec_cancel_untitled (hb : Begins 0x13 .guest s r) (h : field 0 2 r.body = 0) :
    exec (.cancel t) s = .next ((s.atInstant t).reply .badArgument []) := by
  rw [show exec (.cancel t) s = execCancel t s from rfl, execCancel, occurs_powered hb.powered, request_begins t hb,
    if_pos h]

theorem exec_cancel_unowned (hb : Begins 0x13 .guest s r) (h : field 0 2 r.body ≠ 0)
    (hp : s.purchaseOf (field 0 2 r.body) = none) :
    exec (.cancel t) s = .next ((s.atInstant t).reply .notOwned []) := by
  rw [show exec (.cancel t) s = execCancel t s from rfl, execCancel, occurs_powered hb.powered, request_begins t hb,
    if_neg h, show (s.atInstant t).purchaseOf (field 0 2 r.body) = none from hp]

theorem exec_cancel_owned (hb : Begins 0x13 .guest s r) (h : field 0 2 r.body ≠ 0)
    (hp : s.purchaseOf (field 0 2 r.body) = some p) :
    exec (.cancel t) s = .next ((s.atInstant t).cancelOwned p) := by
  rw [show exec (.cancel t) s = execCancel t s from rfl, execCancel, occurs_powered hb.powered, request_begins t hb,
    if_neg h, show (s.atInstant t).purchaseOf (field 0 2 r.body) = some p from hp]

theorem cancelOwned_timeUnset (h : s.time.property = none) : s.cancelOwned p = s.reply .cancelLate [] := by
  rw [State.cancelOwned, h]

theorem lateToCancel_iff (grace : Nat) (now : PTime) (p : Purchase) :
    lateToCancel grace now p = true ↔ grace ≤ now.seconds - p.boughtAt.seconds ∨ grace ≤ p.play := by
  simp [lateToCancel]

theorem cancelOwned_timed {time : PTime} (h : s.time.property = some time) :
    s.cancelOwned p =
      if s.cur.policy.grace * 60 ≤ time.seconds - p.boughtAt.seconds ∨ s.cur.policy.grace * 60 ≤ p.play then
        s.reply .cancelLate []
      else if 0 < p.total ∧ s.freeSlots = 0 then s.reply .journalFull []
      else s.beginCancel p time := by
  simp only [State.cancelOwned, h, lateToCancel_iff]

end

/-- Settles O31: the title, the purchase, the time it was made and the room for its record, in turn. -/
theorem cancelIsJudgedByItsChecks : Obligations.CancelIsJudgedByItsChecks := by
  intro t s r hb title refused
  refine ⟨exec_cancel_untitled hb, exec_cancel_unowned hb, fun p h hp => ⟨fun htime => ?_, fun time htime => ?_⟩⟩
  · exact (exec_cancel_owned hb h hp).trans (congrArg _ (cancelOwned_timeUnset htime))
  · have hjudged := (exec_cancel_owned (t := t) hb h hp).trans
      (congrArg _ (cancelOwned_timed (s := s.atInstant t) htime))
    refine ite_prop_iff_and.2 ⟨fun hlate => ?_, fun hearly => ite_prop_iff_and.2 ⟨fun hfull => ?_, fun hfree => ?_⟩⟩
    · exact hjudged.trans (congrArg _ (if_pos hlate))
    · exact hjudged.trans (congrArg _ ((if_neg hearly).trans (if_pos hfull)))
    · exact hjudged.trans (congrArg _ ((if_neg hearly).trans (if_neg hfree)))

end Sys2Proof.Machine
end

section
/-! PROOF. The completions of the BUY and CANCEL writes (R124, R126, R127, R134, R147, R149; O32). -/

namespace Sys2Proof.Machine

/-! ## What a sale and a credit make of the retained items (R119, R124, R126, R127, R147) -/

/-- The retained items with the record of a sale or credit, where its total is above 0. -/
def Retained.recording (total : Nat) (c : ChargeRecord) (r : Retained) : Retained :=
  if 0 < total then r.append c else r

/-- What a BUY write makes of the retained items, in use and in the store. -/
def Retained.sold (p : Purchase) (number : Option Nat) (r : Retained) : Retained :=
  { r.recording p.total (purchaseRecord p) with
    room := if 0 < p.total then r.room.charged p.total else r.room
    purchases := insertPurchase { p with number := number } (r.dropPurchase p.title).purchases }

/-- What a CANCEL write makes of the retained items, in use and in the store. -/
def Retained.refunded (p : Purchase) (stamp : PTime) (r : Retained) : Retained :=
  { r.recording p.total (creditRecord p stamp) with
    room := if 0 < p.total then r.room.credited p.total else r.room
    purchases := (r.dropPurchase p.title).purchases }

/-- A record has been appended where the total is above 0: CHARGE is raised, and the occupancy has risen. -/
def State.recorded (total : Nat) (s : State) : State :=
  if 0 < total then (s.raise .charge).occupancyRose else s

theorem sold_charged {p : Purchase} (h : 0 < p.total) (number : Option Nat) (r : Retained) :
    r.sold p number =
      ((r.onRoom (.charged p.total)).addPurchase { p with number := number }).append (purchaseRecord p) := by
  simp only [Retained.sold, Retained.recording, h, if_true]
  rfl

theorem sold_free {p : Purchase} (h : ¬ 0 < p.total) (number : Option Nat) (r : Retained) :
    r.sold p number = r.addPurchase { p with number := number } := by
  simp only [Retained.sold, Retained.recording, h, if_false]
  rfl

theorem refunded_charged {p : Purchase} (h : 0 < p.total) (stamp : PTime) (r : Retained) :
    r.refunded p stamp = ((r.onRoom (.credited p.total)).dropPurchase p.title).append (creditRecord p stamp) := by
  simp only [Retained.refunded, Retained.recording, h, if_true]
  rfl

theorem refunded_free {p : Purchase} (h : ¬ 0 < p.total) (stamp : PTime) (r : Retained) :
    r.refunded p stamp = r.dropPurchase p.title := by
  simp only [Retained.refunded, Retained.recording, h, if_false]
  rfl

theorem sell_eq (p : Purchase) (s : State) :
    s.sell p = (s.durably (.sold p (s.numbered p).number)).recorded p.total := by
  by_cases h : 0 < p.total
  · rw [State.sell, State.recorded, if_pos h, if_pos h, funext (sold_charged h _)]
    rfl
  · rw [State.sell, State.recorded, if_neg h, if_neg h, funext (sold_free h _)]
    rfl

theorem refund_eq (p : Purchase) (stamp : PTime) (s : State) :
    s.refund p stamp = (s.durably (.refunded p stamp)).recorded p.total := by
  by_cases h : 0 < p.total
  · rw [State.refund, State.recorded, if_pos h, if_pos h, funext (refunded_charged h _)]
    rfl
  · rw [State.refund, State.recorded, if_neg h, if_neg h, funext (refunded_free h _)]

/-! ## What follows a sale or a credit (R149) -/

theorem occupancyRose_eq (s : State) :
    s.occupancyRose =
      if s.journal.armed = true ∧ s.cur.settings.highMark ≤ s.cur.records.length + s.cur.reserved then
        { s.raise .journalHigh with journal := { s.journal with armed := false } }
      else s := by
  simp only [State.occupancyRose, Bool.and_eq_true, decide_eq_true_eq]
  rfl

/-- The high mark is judged by what a pending charge or record does not change. -/
theorem nothingPending_occupancyRose (s : State) : s.occupancyRose.nothingPending = s.nothingPending.occupancyRose := by
  rw [State.occupancyRose, apply_ite State.nothingPending]
  rfl

theorem nothingPending_recorded (total : Nat) (s : State) :
    (s.recorded total).nothingPending = s.nothingPending.recorded total := by
  rw [State.recorded, apply_ite State.nothingPending, nothingPending_occupancyRose]
  rfl

/-! ## The completions -/

/-- The write of a sale or credit is done: the retained items are changed, nothing is pending, and what follows the
record. -/
def State.saleDone (total : Nat) (f : Retained → Retained) (rest : List TurnWrite) (s : State) : State :=
  ((((s.onTurns fun _ => rest).durably f).nothingPending).recorded total).turnsAdvance

section

variable {t : Nat} {s : State} {p : Purchase} {rest : List TurnWrite}

theorem exec_buyWriteComplete (hp : s.power ≠ .off)
    (hw : takeBegun TurnWrite.isBuy false false s.turns = some (.buy p, rest)) :
    exec (.buyWriteComplete t) s = .next
      (((s.atInstant t).saleDone p.total (.sold p (s.numbered p).number) rest).reply .ok
        (buyFields (s.numbered p))).rerunAll := by
  rw [show exec (.buyWriteComplete t) s = execBuyWriteComplete t s from rfl, execBuyWriteComplete, occurs_powered hp,
    show takeBegun TurnWrite.isBuy false false (s.atInstant t).turns = some (.buy p, rest) from hw]
  dsimp only
  rw [sell_eq, nothingPending_recorded]
  rfl

theorem exec_cancelWriteComplete {stamp : PTime} (hp : s.power ≠ .off)
    (hw : takeBegun TurnWrite.isCancel false false s.turns = some (.cancel p stamp, rest)) :
    exec (.cancelWriteComplete t) s = .next
      (((s.atInstant t).saleDone p.total (.refunded p stamp) rest).reply .ok (s.cancelFields p)).rerunAll := by
  rw [show exec (.cancelWriteComplete t) s = execCancelWriteComplete t s from rfl, execCancelWriteComplete,
    occurs_powered hp,
    show takeBegun TurnWrite.isCancel false false (s.atInstant t).turns = some (.cancel p stamp, rest) from hw]
  dsimp only
  rw [refund_eq, nothingPending_recorded]
  rfl

end

/-- Settles O32: the high mark, then each completion as its change of the retained items and what follows. -/
theorem salesTakeEffectAtTheirWritesCompletion : Obligations.SalesTakeEffectAtTheirWritesCompletion :=
  ⟨occupancyRose_eq, fun _ _ _ _ hp =>
    ⟨fun hw => ⟨_, exec_buyWriteComplete hp hw, reran_rerun _ _⟩,
      fun _ hw => ⟨_, exec_cancelWriteComplete hp hw, reran_rerun _ _⟩⟩⟩

end Sys2Proof.Machine
end

section
/-! PROOF. What the Billing Unit keeps to be taken reaches the store: expired purchases, viewing counts, and previews
that reached the allowance (R120, R121, R129; O34). -/

namespace Sys2Proof.Machine

section

variable {t title : Nat} {s : State} {p : Purchase}

/-! ## Expired purchases (R120) -/

/-- The purchase found expired is taken off the list of those to be taken. -/
def State.expiryTaken (p : Purchase) (s : State) : State :=
  s.onBilling fun b => { b with expired := b.expired.erase p }

theorem exec_purchaseExpiry (hp : s.power ≠ .off)
    (h : (s.billing.expired.find? fun q => q.title == title) = some p) :
    exec (.purchaseExpiry t title) s = .next (
      let taken := (s.atInstant t).expiryTaken p
      if s.cancelling title = true then s.atInstant t
      else (s.cur.purchases.find? (·.same p)).elim taken taken.expire) := by
  rw [show exec (.purchaseExpiry t title) s = execPurchaseExpiry t title s from rfl, execPurchaseExpiry,
    occurs_powered hp, show ((s.atInstant t).billing.expired.find? fun q => q.title == title) = some p from h]
  dsimp only
  rw [show (s.atInstant t).cur.purchases = s.cur.purchases from rfl]
  cases s.cur.purchases.find? (·.same p) with
  | none => rfl
  | some q => rfl

theorem exec_expiryWriteComplete (hp : s.power ≠ .off)
    (h : (s.billing.expiryWrites.find? fun q => q.title == title) = some p) :
    exec (.expiryWriteComplete t title) s = .next ((s.atInstant t).removeExpired p) := by
  rw [show exec (.expiryWriteComplete t title) s = execExpiryWriteComplete t title s from rfl, execExpiryWriteComplete,
    occurs_powered hp, show ((s.atInstant t).billing.expiryWrites.find? fun q => q.title == title) = some p from h]

/-! ## Viewing counts and exhausted previews (R121, R129) -/

theorem exec_viewingWriteComplete (hp : s.power ≠ .off) (h : s.billing.viewingWrite = true) :
    exec (.viewingWriteComplete t) s = .next (((s.atInstant t).onStore (.takeViewing s.cur)).onBilling fun b =>
      { b with viewingWrite := b.viewingOwed, viewingOwed := false }) := by
  rw [show exec (.viewingWriteComplete t) s = execViewingWriteComplete t s from rfl, execViewingWriteComplete,
    occurs_powered hp]
  exact congrArg _ (if_pos h)

theorem exec_previewAllowanceReached (hp : s.power ≠ .off) (h : title ∈ s.billing.allowanceReached) :
    exec (.previewAllowanceReached t title) s = .next ((s.atInstant t).onBilling fun b =>
      { b with allowanceReached := b.allowanceReached.erase title }).rerunAll := by
  rw [show exec (.previewAllowanceReached t title) s = execPreviewAllowanceReached t title s from rfl,
    execPreviewAllowanceReached, occurs_powered hp]
  exact congrArg _ (if_pos (List.contains_iff_mem.2 h))

end

/-- Settles O34: an expiry found, its removal from the store, a viewing write, and an exhausted preview. -/
theorem expiriesAndViewingCountsReachTheStore : Obligations.ExpiriesAndViewingCountsReachTheStore := by
  intro t s hp
  refine ⟨fun title p h => ⟨_, exec_purchaseExpiry hp h, fun hc => if_pos hc, fun hc hgone => ?_,
      fun q hc hheld => ?_⟩,
    fun title p h => exec_expiryWriteComplete hp h, fun h => exec_viewingWriteComplete hp h,
    fun title h => ⟨_, exec_previewAllowanceReached hp h, reran_rerun _ _⟩⟩
  · rw [if_neg (by simp [hc]), List.find?_eq_none.2 (by simpa using hgone)]
    rfl
  · rw [if_neg (by simp [hc]), hheld]
    exact reran_rerun _ _

end Sys2Proof.Machine
end

section
/-! PROOF. The writes that take turns: which write is in flight, and when a meter write takes its image (R134, R137,
R147; O36). -/

namespace Sys2Proof.Machine

/-! ## The write in flight (R134, R147) -/

/-- `w` is in flight behind the writes `before`, where the flags say whether a write of the Billing Unit, or one of the
journal, stands before all these: no write before it is of the same owner. -/
def TurnWrite.BegunBehind (billing journal : Bool) (before : List TurnWrite) (w : TurnWrite) : Prop :=
  (w.isBilling = true → billing = false ∧ ∀ v ∈ before, v.isBilling = false) ∧
    (w.isJournal = true → journal = false ∧ ∀ v ∈ before, v.isJournal = false)

theorem TurnWrite.begunBehind_nil (billing journal : Bool) (w : TurnWrite) :
    w.BegunBehind billing journal [] ↔ (!(w.isBilling && billing) && !(w.isJournal && journal)) = true := by
  simp [BegunBehind, imp_iff_not_or]

/-- A write at the head of those before only adds to the flags. -/
theorem TurnWrite.begunBehind_cons (billing journal : Bool) (v : TurnWrite) (before : List TurnWrite)
    (w : TurnWrite) :
    w.BegunBehind billing journal (v :: before) ↔
      w.BegunBehind (billing || v.isBilling) (journal || v.isJournal) before := by
  simp [BegunBehind, and_assoc]

/-- `w` is the first of `before ++ w :: after` that `p` names and that is in flight. -/
structure FirstBegun (p : TurnWrite → Bool) (billing journal : Bool) (before : List TurnWrite) (w : TurnWrite) :
    Prop where
  named : p w = true
  begun : w.BegunBehind billing journal before
  first : ∀ pre v post, before = pre ++ v :: post → p v = true → ¬ v.BegunBehind billing journal pre

theorem firstBegun_nil {p : TurnWrite → Bool} {billing journal : Bool} {w : TurnWrite} :
    FirstBegun p billing journal [] w ↔ p w = true ∧ w.BegunBehind billing journal [] :=
  ⟨fun h => ⟨h.named, h.begun⟩, fun h => ⟨h.1, h.2, by simp⟩⟩

theorem firstBegun_cons {p : TurnWrite → Bool} {billing journal : Bool} {v w : TurnWrite}
    {before : List TurnWrite} :
    FirstBegun p billing journal (v :: before) w ↔
      ¬ FirstBegun p billing journal [] v ∧
        FirstBegun p (billing || v.isBilling) (journal || v.isJournal) before w := by
  rw [firstBegun_nil]
  constructor
  · rintro ⟨hw, hbegun, hfirst⟩
    refine ⟨fun h => hfirst [] v before rfl h.1 h.2, hw, (TurnWrite.begunBehind_cons ..).1 hbegun,
      fun pre x post he hx hb => ?_⟩
    exact hfirst (v :: pre) x post (by rw [he]; rfl) hx ((TurnWrite.begunBehind_cons ..).2 hb)
  · rintro ⟨hv, hw, hbegun, hfirst⟩
    refine ⟨hw, (TurnWrite.begunBehind_cons ..).2 hbegun, fun pre x post he hx hb => ?_⟩
    cases pre with
    | nil =>
      obtain ⟨rfl, -⟩ := List.cons.inj he
      exact hv ⟨hx, hb⟩
    | cons y pre =>
      obtain ⟨rfl, htail⟩ := List.cons.inj he
      exact hfirst pre x post htail hx ((TurnWrite.begunBehind_cons ..).1 hb)

/-- The write `takeBegun` answers is the first that it is asked for and that is in flight. -/
theorem takeBegun_eq_some {p : TurnWrite → Bool} {billing journal : Bool} {writes rest : List TurnWrite}
    {w : TurnWrite} :
    takeBegun p billing journal writes = some (w, rest) ↔
      ∃ before after, writes = before ++ w :: after ∧ rest = before ++ after ∧
        FirstBegun p billing journal before w := by
  induction writes generalizing billing journal rest with
  | nil => simp [takeBegun]
  | cons v vs ih =>
    have hhead : (p v && !(v.isBilling && billing) && !(v.isJournal && journal)) = true ↔
        FirstBegun p billing journal [] v := by
      rw [firstBegun_nil, TurnWrite.begunBehind_nil, Bool.and_assoc, Bool.and_eq_true]
    unfold takeBegun
    split
    case isTrue hv =>
      rw [hhead] at hv
      constructor
      · intro h
        cases h
        exact ⟨[], vs, rfl, rfl, hv⟩
      · rintro ⟨_ | ⟨x, before⟩, after, he, rfl, hfirst⟩
        · cases he
          rfl
        · cases he
          exact absurd hv (firstBegun_cons.1 hfirst).1
    case isFalse hv =>
      rw [hhead] at hv
      constructor
      · intro h
        split at h
        case h_2 => cases h
        case h_1 x tail htail =>
          cases h
          obtain ⟨before, after, rfl, rfl, hfirst⟩ := ih.1 htail
          exact ⟨v :: before, after, rfl, rfl, firstBegun_cons.2 ⟨hv, hfirst⟩⟩
      · rintro ⟨_ | ⟨x, before⟩, after, he, rfl, hfirst⟩
        · cases he
          exact absurd hfirst hv
        · cases he
          rw [ih.2 ⟨before, after, rfl, rfl, (firstBegun_cons.1 hfirst).2⟩]
          rfl

theorem takeBegun_mem {p : TurnWrite → Bool} {writes rest : List TurnWrite} {w : TurnWrite}
    (h : takeBegun p false false writes = some (w, rest)) : w ∈ writes := by
  obtain ⟨before, after, rfl, -⟩ := takeBegun_eq_some.1 h
  simp

theorem takeBegun_rest {p : TurnWrite → Bool} {writes rest : List TurnWrite} {w : TurnWrite}
    (h : takeBegun p false false writes = some (w, rest)) : rest.Sublist writes := by
  obtain ⟨before, after, rfl, rfl, -⟩ := takeBegun_eq_some.1 h
  exact .append_left (List.sublist_cons_self ..) _

/-! ## The image of a meter write (R137; log 22) -/

theorem beginMeterWrite_length (image : MeterImage) (writes : List TurnWrite) :
    (beginMeterWrite image writes).length = writes.length :=
  (beginMeterWrite_ran image writes).length_eq.symm

theorem beginMeterWrite_cons (image : MeterImage) (w : TurnWrite) (ws : List TurnWrite) :
    beginMeterWrite image (w :: ws) =
      if w = .meter none then .meter (some image) :: ws
      else if w.isBilling = true then w :: ws
      else w :: beginMeterWrite image ws := by
  rw [beginMeterWrite.eq_def]
  split
  case h_1 h => cases h
  case h_2 h =>
    cases h
    rfl
  case h_3 hne h =>
    cases h
    rw [if_neg hne]

/-- A meter write takes its image where no write of the Billing Unit stands before it; every other write stays. -/
theorem beginMeterWrite_getElem (image : MeterImage) (before : List TurnWrite) (w : TurnWrite)
    (after : List TurnWrite) :
    (beginMeterWrite image (before ++ w :: after))[before.length]? =
      some (if w = .meter none ∧ ∀ v ∈ before, v.isBilling = false then .meter (some image) else w) := by
  induction before with
  | nil =>
    rw [List.nil_append, beginMeterWrite_cons]
    split_ifs <;> simp_all
  | cons v vs ih =>
    rw [List.cons_append, beginMeterWrite_cons, List.length_cons]
    split
    case isTrue hv => simp [hv, TurnWrite.isBilling]
    case isFalse =>
      split
      case isTrue hv => simp [hv]
      case isFalse hv => simp [ih, hv]

theorem any_isMeter_iff (writes : List TurnWrite) :
    writes.any TurnWrite.isMeter = true ↔ ∃ w ∈ writes, w.isMeter = true := List.any_eq_true

/-- Settles O36: the write in flight by `takeBegun_eq_some`, and the image of a meter write as it begins. -/
theorem durableWritesTakeTheirTurns : Obligations.DurableWritesTakeTheirTurns := by
  refine ⟨fun p writes rest w => ?_, fun s => ?_, fun s w => rfl, fun s => ?_⟩
  · have hbegun (before : List TurnWrite) (v : TurnWrite) : v.BegunBehind false false before ↔
        (v.isBilling = true → ∀ u ∈ before, u.isBilling = false) ∧
          (v.isJournal = true → ∀ u ∈ before, u.isJournal = false) := by
      simp [TurnWrite.BegunBehind]
    simp only [takeBegun_eq_some, ← hbegun]
    refine exists₂_congr fun before after => and_congr_right fun _ => and_congr_right fun _ => ?_
    exact ⟨fun h => ⟨h.named, h.begun, h.first⟩, fun ⟨hnamed, hbegun, hfirst⟩ => ⟨hnamed, hbegun, hfirst⟩⟩
  · refine ⟨beginMeterWrite s.meterImage s.turns, rfl, beginMeterWrite_length .., fun before w after h => ?_⟩
    rw [h]
    exact beginMeterWrite_getElem ..
  · simp only [State.meterChanged, any_isMeter_iff]
    rfl

end Sys2Proof.Machine
end

section
/-! PROOF. The law of the meter tables (R135, R148) is kept by changes of the retained items, by the writes that take
turns, and by runs of verdicts, which open sessions and begin their closes (R136, R141). -/

namespace Sys2Proof.Machine

/-! ## One meter table -/

/-- The law reads the services of the sessions and the reserved count alone. -/
theorem meterLaw_of_services {meter meter' : List Session} {reserved : Nat}
    (hs : meter'.map (·.service) = meter.map (·.service)) (h : MeterLaw meter reserved) :
    MeterLaw meter' reserved := by
  obtain ⟨hnodup, hlength, hreserved⟩ := h
  have hlen : meter'.length = meter.length := by simpa using congrArg List.length hs
  exact ⟨hs ▸ hnodup, hlen ▸ hlength, hlen ▸ hreserved⟩

theorem services_map {f : Session → Session} (hf : ∀ x, (f x).service = x.service) (meter : List Session) :
    (meter.map f).map (·.service) = meter.map (·.service) := by
  rw [List.map_map]
  exact List.map_congr_left fun x _ => hf x

theorem services_onSession {f : Session → Session} (hf : ∀ x, (f x).service = x.service) (n : Nat)
    (r : Retained) : (r.onSession n f).meter.map (·.service) = r.meter.map (·.service) :=
  services_map (fun x => by split <;> simp [hf]) r.meter

/-- A session of a service that has none joins a table with room for it, with its reservation (R136). -/
theorem meterLaw_open {meter : List Session} {reserved : Nat} {x : Session}
    (hnew : ∀ y ∈ meter, y.service ≠ x.service) (hroom : meter.length < 4) (h : MeterLaw meter reserved) :
    MeterLaw (meter ++ [x]) (reserved + 1) := by
  obtain ⟨hnodup, -, rfl⟩ := h
  refine ⟨?_, by simpa using hroom, by simp⟩
  rw [List.map_append, List.map_singleton, List.nodup_append]
  refine ⟨hnodup, List.nodup_singleton _, fun n hn m hm => ?_⟩
  obtain ⟨y, hy, rfl⟩ := List.mem_map.1 hn
  rw [List.mem_singleton.1 hm]
  exact hnew y hy

/-- Of the sessions with different services one leaves with that of its service (R141). -/
theorem length_filter_service {meter : List Session} (hnodup : (meter.map (·.service)).Nodup) {x : Session}
    (hx : x ∈ meter) : (meter.filter fun y => y.service != x.service).length + 1 = meter.length := by
  induction meter with
  | nil => cases hx
  | cons y ys ih =>
    obtain ⟨hy, hys⟩ := List.nodup_cons.1 hnodup
    rcases List.mem_cons.1 hx with rfl | hx
    · have hothers : ys.filter (fun z => z.service != x.service) = ys :=
        List.filter_eq_self.2 fun z hz => by simpa using fun he => hy (List.mem_map.2 ⟨z, hz, he⟩)
      simp [hothers]
    · have hne : y.service ≠ x.service := fun he => hy (List.mem_map.2 ⟨x, hx, he.symm⟩)
      simp [hne, ih hys hx]

/-- A session leaves the table with its reservation (R141, R148). -/
theorem meterLaw_endSession (n : Nat) {r : Retained} (h : MeterLaw r.meter r.reserved) :
    MeterLaw (r.endSession n).meter (r.endSession n).reserved := by
  unfold Retained.endSession
  split
  case isFalse => exact h
  case isTrue hany =>
    obtain ⟨x, hx, he⟩ := List.any_eq_true.1 hany
    obtain rfl : x.service = n := by simpa using he
    obtain ⟨hnodup, hlength, hreserved⟩ := h
    have hfewer := length_filter_service hnodup hx
    exact ⟨hnodup.sublist (List.filter_sublist.map _), by dsimp only; omega, by dsimp only; omega⟩

theorem meterLaw_checked (intact : Bool) {r : Retained} (h : MeterLaw r.meter r.reserved) :
    MeterLaw (r.checked intact).meter (r.checked intact).reserved := by
  unfold Retained.checked
  split
  · have hs : r.restored.meter.map (·.service) = r.meter.map (·.service) := services_map (by simp) r.meter
    exact meterLaw_of_services hs h
  · exact ⟨.nil, Nat.zero_le _, rfl⟩

/-- A meter write that begins carries the image it is given. -/
theorem mem_beginMeterWrite {image i : MeterImage} {writes : List TurnWrite}
    (h : TurnWrite.meter (some i) ∈ beginMeterWrite image writes) :
    i = image ∨ TurnWrite.meter (some i) ∈ writes := by
  induction writes with
  | nil => exact .inr h
  | cons w ws ih =>
    rw [beginMeterWrite_cons] at h
    split at h
    case isTrue =>
      rcases List.mem_cons.1 h with h | h
      · cases h
        exact .inl rfl
      · exact .inr (.tail _ h)
    case isFalse =>
      split at h
      case isTrue => exact .inr h
      case isFalse =>
        rcases List.mem_cons.1 h with h | h
        · exact .inr (h ▸ .head _)
        · exact (ih h).imp_right (.tail _)

/-! ## The part: what leaves the meter tables as they are is no step of a proof

The law reads the retained items in use, those in the store, and the queue of writes. A change of anything else, or of
other retained items, leaves the law as it is written, so that the law before is the law after. -/

namespace State.MeterLaw

variable {s s' : State}

theorem ite {c : Prop} [Decidable c] (h : s.MeterLaw) (k : s'.MeterLaw) : (if c then s else s').MeterLaw := by
  split
  · exact h
  · exact k

theorem foldl {f : State → α → State} (hf : ∀ s x, s.MeterLaw → (f s x).MeterLaw) (l : List α) (h : s.MeterLaw) :
    (l.foldl f s).MeterLaw := by
  induction l generalizing s with
  | nil => exact h
  | cons x xs ih => exact ih (hf s x h)

/-- The law reads no other fields; for a state whose fields are dear to compare. -/
theorem framed (h : s.MeterLaw) (hcur : s'.cur = s.cur := by rfl) (hstore : s'.store = s.store := by rfl)
    (hturns : s'.turns = s.turns := by rfl) : s'.MeterLaw := by
  unfold State.MeterLaw
  rw [hcur, hstore, hturns]
  exact h

/-- The sessions in use change, and keep their services. -/
theorem setMeter {meter : List Session} (hm : meter.map (·.service) = s.cur.meter.map (·.service))
    (h : s.MeterLaw) : (s.onCur fun r => { r with meter := meter }).MeterLaw :=
  ⟨meterLaw_of_services hm h.1, h.2⟩

/-! ## Writes that take turns (R134, R137) -/

/-- The writes that wait or are in flight become fewer. -/
theorem setTurns {writes : List TurnWrite} (hw : writes ⊆ s.turns) (h : s.MeterLaw) :
    (s.onTurns fun _ => writes).MeterLaw :=
  ⟨h.1, h.2.1, fun image hi => h.2.2 image (hw hi)⟩

theorem taken {p : TurnWrite → Bool} {w : TurnWrite} {rest : List TurnWrite}
    (hw : takeBegun p false false s.turns = some (w, rest)) (h : s.MeterLaw) :
    (s.onTurns fun _ => rest).MeterLaw :=
  h.setTurns (takeBegun_rest hw).subset

/-- A meter write that begins carries the table in use. -/
theorem turnsAdvance (h : s.MeterLaw) : s.turnsAdvance.MeterLaw := by
  refine ⟨h.1, h.2.1, fun image hi => ?_⟩
  rcases mem_beginMeterWrite hi with rfl | hi
  · exact h.1
  · exact h.2.2 image hi

/-- A write that falls due carries no image before it begins. -/
theorem fallDue {w : TurnWrite} (hw : ∀ image, w ≠ .meter (some image)) (h : s.MeterLaw) :
    (s.fallDue w).MeterLaw := by
  have joined : (s.onTurns (· ++ [w])).MeterLaw := by
    refine ⟨h.1, h.2.1, fun image hi => ?_⟩
    rcases List.mem_append.1 hi with hi | hi
    · exact h.2.2 image hi
    · exact absurd (List.mem_singleton.1 hi).symm (hw image)
  exact joined.turnsAdvance

theorem meterChanged (h : s.MeterLaw) : s.meterChanged.MeterLaw := .ite h (.fallDue (by simp) h)

theorem presentedChanged (h : s.MeterLaw) : s.presentedChanged.MeterLaw := .ite h (.fallDue (by simp) h)

theorem beginRelease {upTo : Nat} (h : s.MeterLaw) : (s.beginRelease upTo).MeterLaw :=
  .ite h (.fallDue (by simp) h)

/-! ## Sessions (R136, R140, R141, R143, R149) -/

theorem occupancyRose (h : s.MeterLaw) : s.occupancyRose.MeterLaw := .ite h h

theorem occupancyFell (h : s.MeterLaw) : s.occupancyFell.MeterLaw := .ite h h

theorem addDaySpend {n units : Nat} (h : s.MeterLaw) : (s.addDaySpend n units).MeterLaw :=
  .ite h (.ite h (.ite h h))

theorem beginClose {n : Nat} {cause : CloseCause} (h : s.MeterLaw) : (s.beginClose n cause).MeterLaw := by
  unfold State.beginClose
  split
  · have marked : (s.onCur (Retained.onSession n (.close cause))).MeterLaw :=
      h.setMeter (services_onSession (f := .close cause) (fun _ => rfl) n s.cur)
    exact .ite h (.fallDue (by simp) marked)
  · exact h

theorem closeOldest {cause : CloseCause} {p : Session → Bool} (h : s.MeterLaw) :
    (s.closeOldest cause p).MeterLaw := by
  unfold State.closeOldest
  split
  · exact h.beginClose
  · exact h

theorem openSession {n : Nat} {time : PTime} (hnew : s.session n = none) (hroom : s.cur.meter.length < 4)
    (h : s.MeterLaw) : (s.openSession n time).MeterLaw := by
  refine .meterChanged (.occupancyRose ⟨meterLaw_open (fun y hy => ?_) hroom h.1, h.2⟩)
  simpa using List.find?_eq_none.1 hnew y hy

theorem askMeter {n : Nat} {terms : MeterTerms} {time : PTime} (h : s.MeterLaw) :
    (s.askMeter n terms time).1.MeterLaw := by
  unfold State.askMeter
  split
  case h_1 => split <;> exact h
  case h_2 hnew =>
    split
    case isTrue =>
      split
      · exact h
      · exact h.closeOldest
    case isFalse hroom =>
      split
      · exact h
      · split
        · exact h.openSession hnew (Nat.lt_of_not_le hroom)
        · exact h

/-! ## Runs of verdicts (R68 to R73, R81 to R85) -/

theorem access {n : Nat} {r : Service} (h : s.MeterLaw) : (s.access n r).1.MeterLaw := by
  unfold State.access
  split
  case h_4 =>
    split
    · split
      · exact h.askMeter
      · exact h
    · exact h
  case h_3 => split <;> exact h
  all_goals exact h

theorem judge {o : Screen} (h : s.MeterLaw) : (s.judge o).1.MeterLaw := by
  unfold State.judge
  split
  · exact h
  split
  · exact h
  split
  · exact h
  repeat' split
  all_goals first | exact h | exact h.access

theorem holdAll {e : EngineId} {outs : List Screen} (h : s.MeterLaw) : (s.holdAll e outs).MeterLaw :=
  .foldl (f := fun s o => s.onOutput o (.hold e)) (fun _ _ h => h) outs h

theorem releaseIfUnheld {e : EngineId} (h : s.MeterLaw) : (s.releaseIfUnheld e).1.MeterLaw := by
  unfold State.releaseIfUnheld
  split
  · have freed : (s.freeEngine e).1.MeterLaw := by
      unfold State.freeEngine
      split <;> split
      all_goals first | exact h | exact holdAll h
    exact freed
  · exact h

theorem endClaim {o : Screen} (h : s.MeterLaw) : (s.endClaim o).1.MeterLaw := by
  unfold State.endClaim
  split
  · exact h
  · exact releaseIfUnheld h

theorem claim {o : Screen} {n : Nat} (h : s.MeterLaw) : (s.claim o n).1.MeterLaw := by
  have ended : (s.endOtherClaim o n).1.MeterLaw := by
    unfold State.endOtherClaim
    split
    · exact h
    · exact h.endClaim
  have obtained : ((s.endOtherClaim o n).1.obtainEngine o n).MeterLaw := by
    unfold State.obtainEngine
    repeat' split
    all_goals exact ended
  exact obtained

theorem verdict {o : Screen} (h : s.MeterLaw) : (s.verdict o).1.MeterLaw := by
  have judged := h.judge (o := o)
  unfold State.verdict
  split <;> rename_i heq <;> rw [heq] at judged
  case h_4 => exact judged.claim
  all_goals exact judged.endClaim

theorem followOn {o : Screen} {left : Option EngineId} (h : s.MeterLaw) : (s.followOn o left).MeterLaw := by
  unfold State.followOn State.refit State.rebind
  repeat' split
  all_goals exact h

theorem take {x : Turn} (h : s.MeterLaw) : (s.take x).1.MeterLaw := by
  cases x with
  | release e => exact h.releaseIfUnheld
  | run o left => exact h.followOn.verdict

theorem takeTurns {fuel : Nat} {turns : List Turn} (h : s.MeterLaw) : (s.takeTurns fuel turns).MeterLaw := by
  induction fuel generalizing turns s with
  | zero => exact h
  | succ n ih =>
    cases turns with
    | nil => exact h
    | cons x xs => exact ih h.take

theorem rerun {outs : List Screen} (h : s.MeterLaw) : (s.rerun outs).MeterLaw := by
  have ordered : (s.useOrder (s.orderMatters outs)).MeterLaw := .ite h h
  have letGo : ((s.useOrder (s.orderMatters outs)).letGo outs).MeterLaw :=
    .foldl (f := fun s o => if (s.leaves o).isSome then s.onOutput o .unhold else s) (fun _ _ h => .ite h h) outs
      ordered
  exact letGo.takeTurns

theorem rerunAll (h : s.MeterLaw) : s.rerunAll.MeterLaw := h.rerun

theorem raiseTimes {c : EventClass} {n : Nat} (h : s.MeterLaw) : (s.raiseTimes c n).MeterLaw := by
  induction n generalizing s with
  | zero => exact h
  | succ n ih => exact ih h

theorem judgeLapses {concerned : Screen → Bool} (h : s.MeterLaw) : (s.judgeLapses concerned).MeterLaw :=
  .ite h <| .rerunAll <| .raiseTimes <|
    .foldl (f := fun s w => s.dropUnlock w) (fun _ _ h => h) _ h

theorem moneyChanged {before : State} (h : s.MeterLaw) : (s.moneyChanged before).MeterLaw := .ite h h.rerun

theorem applyRoute {o : Screen} {route : Option Nat} (h : s.MeterLaw) : (s.applyRoute o route).MeterLaw := rerun h

theorem endHold (h : s.MeterLaw) : s.endHold.MeterLaw := 
  .rerun <| .foldl (f := fun s o => s.dropUnlock (some o)) (fun _ _ h => h) _ h

end State.MeterLaw

end Sys2Proof.Machine
end

section
/-! PROOF. The operations the commands are made of keep the law of the meter tables (R135, R148): one lemma for each
that runs verdicts, reaches the meter table or the queue of writes, or has cases. -/

namespace Sys2Proof.Machine.State.MeterLaw

variable {s : State}

/-! ## Engines and keys -/

theorem cellDecoded {e : EngineId} {n : Nat} {parity : Option Parity} (h : s.MeterLaw) :
    (s.cellDecoded e n parity).MeterLaw := by
  unfold State.cellDecoded
  split
  · exact .ite (rerun h) h
  · exact h

theorem endWarmUp {e : EngineId} (h : s.MeterLaw) : (s.endWarmUp e).1.MeterLaw := by
  unfold State.endWarmUp
  split
  · exact h
  · split
    · exact h
    · exact holdAll h
  · exact h

theorem powerEngines (h : s.MeterLaw) : s.powerEngines.MeterLaw := .ite h h

theorem judgePower {old : Settings} (h : s.MeterLaw) : (s.judgePower old).MeterLaw := .ite h (powerEngines h)

theorem takeAccessOp {g : Nat} {op : AccessOp} (h : s.MeterLaw) : (s.takeAccessOp g op).MeterLaw :=
  .ite h (.ite h h)

theorem nextAccessOp {g : Nat} (h : s.MeterLaw) : (s.nextAccessOp g).MeterLaw := by
  unfold State.nextAccessOp
  split
  · exact takeAccessOp h
  · exact h

/-! ## The Set Port -/

theorem startSending (h : s.MeterLaw) : s.startSending.MeterLaw := .ite h h

theorem queueError {bytes : List Byte} (h : s.MeterLaw) : (s.queueError bytes).MeterLaw := .ite (startSending h) h

theorem replyWith {st : Status} {fields : List Byte} {resets : Bool} (h : s.MeterLaw) :
    (s.replyWith st fields resets).MeterLaw := by
  unfold State.replyWith
  split
  · exact h
  · exact startSending h

theorem reply {st : Status} {fields : List Byte} (h : s.MeterLaw) : (s.reply st fields).MeterLaw := h.replyWith

theorem judgeFrame {got crc : List Byte} (h : s.MeterLaw) : (s.judgeFrame got crc).MeterLaw :=
  .ite (.ite h (queueError h)) (queueError h)

theorem takeChar {c : Byte} (h : s.MeterLaw) : (s.takeChar c).MeterLaw := by
  unfold State.takeChar
  split
  case h_4 => exact h
  case h_5 => exact judgeFrame h
  all_goals exact .ite h h

theorem arriveChar (c : Byte) (h : s.MeterLaw) : (s.arriveChar c).MeterLaw := by
  have ready : (if s.gap then s.dropFrame else s).MeterLaw := .ite h h
  exact .ite h (takeChar ready)

theorem request {kind : Nat} {group : Group} {f : List Byte → State → State} (hf : ∀ b, (f b s).MeterLaw)
    (h : s.MeterLaw) : (s.request kind group f).MeterLaw := by
  unfold State.request State.beginRequest
  split
  · exact .ite (.ite h.reply (.ite h.reply (hf _))) h
  · exact h

theorem markGuestWaits (h : s.MeterLaw) : s.markGuestWaits.MeterLaw := by
  unfold State.markGuestWaits
  split
  · exact .ite h h
  · exact h

/-! ## The Rating Lock -/

theorem lockFreed (h : s.MeterLaw) : s.lockFreed.MeterLaw := by
  refine .ite h ?_
  split
  · exact h
  · exact .ite h h

theorem lockoutEnded {before : State} (h : s.MeterLaw) : (s.lockoutEnded before).MeterLaw := .ite h h

theorem endLockout (h : s.MeterLaw) : s.endLockout.MeterLaw := .ite h h

theorem grant {room : Bool} {screen : Nat} (h : s.MeterLaw) : (s.grant room screen).MeterLaw := by
  refine .ite (rerunAll h) ?_
  split
  · exact rerunAll h
  · exact h

theorem takeLockMessage {m : MsgBody} (h : s.MeterLaw) : (s.takeLockMessage m).MeterLaw := by
  unfold State.takeLockMessage
  split
  case h_4 => exact h
  all_goals exact .ite h h

theorem takeWaiting {ms : List MsgBody} (h : s.MeterLaw) : (s.takeWaiting ms).MeterLaw := by
  induction ms generalizing s with
  | nil => exact h
  | cons m ms ih => exact .ite h (ih h.takeLockMessage)

/-! ## The Room Controller -/

theorem advanceCheckOut (h : s.MeterLaw) : s.advanceCheckOut.MeterLaw := .ite (.ite h (.ite h h.closeOldest)) h

theorem beginCheckOut {next : Option CheckIn} (h : s.MeterLaw) : (s.beginCheckOut next).MeterLaw :=
  .advanceCheckOut (rerunAll h)

theorem advanceSuspend (h : s.MeterLaw) : s.advanceSuspend.MeterLaw := by
  refine .ite h ?_
  split
  · exact beginClose h
  · exact h

theorem takeNextFolio {next : Option CheckIn} (h : s.MeterLaw) : (s.takeNextFolio next).MeterLaw := by
  unfold State.takeNextFolio
  split <;> exact h

theorem takeRoomMessage {m : MsgBody} (h : s.MeterLaw) : (s.takeRoomMessage m).MeterLaw := by
  unfold State.takeRoomMessage
  split
  case h_1 => exact .ite h (.ite (.ite (.ite h h) h.beginCheckOut) h)
  case h_2 => exact .ite h.beginCheckOut h
  case h_3 => exact .ite (.ite h h) h
  case h_4 => exact h
  case h_9 => exact h
  all_goals exact .ite h h

theorem takeHeld {ms : List MsgBody} (h : s.MeterLaw) : (s.takeHeld ms).MeterLaw := by
  induction ms generalizing s with
  | nil => exact h
  | cons m ms ih => exact .ite h (ih h.takeRoomMessage)

/-! ## The receipt of a message -/

theorem judgeHanded {ps : List (List Byte)} (h : s.MeterLaw) : (s.judgeHanded ps).MeterLaw := by
  induction ps generalizing s with
  | nil => exact h
  | cons p ps ih =>
    unfold State.judgeHanded
    split
    · exact ih h
    · exact ih h
    · exact h

theorem handOver {p : List Byte} (h : s.MeterLaw) : (s.handOver p).MeterLaw := by
  unfold State.handOver
  split
  · exact h
  · exact h.judgeHanded

theorem dispatch {k : MsgKind} {f : Message → State → State}
    (hf : ∀ m (s : State), s.MeterLaw → (f m s).MeterLaw) (h : s.MeterLaw) : (s.dispatch k f).MeterLaw := by
  unfold State.dispatch
  split
  · exact .ite (judgeHanded (hf _ _ h)) h
  · exact h

theorem recordIssue {m : Message} (h : s.MeterLaw) : (s.recordIssue m).MeterLaw := .ite h h

theorem receive {f : MsgBody → State → State} (hf : ∀ m (s : State), s.MeterLaw → (f m s).MeterLaw) (m : Message)
    (s : State) (h : s.MeterLaw) : (s.receive f m).MeterLaw := hf _ _ h.recordIssue

theorem receiveRoom (m : Message) (s : State) (h : s.MeterLaw) : (s.receiveRoom m).MeterLaw :=
  .ite h.recordIssue.takeRoomMessage (.ite h.recordIssue h)

theorem receiveLock (m : Message) (s : State) (h : s.MeterLaw) : (s.receiveLock m).MeterLaw :=
  .ite h.recordIssue.takeLockMessage (.ite h.recordIssue h)

/-! ## What the property offers and sets -/

theorem addService (raw : RawService) (h : s.MeterLaw) : (s.addService raw).MeterLaw := by
  unfold State.addService
  split
  · have told {l : List Service} : (s.setLineup l).promoteKeys.MeterLaw := h
    exact .ite h (.ite told.judgeLapses.rerun h)
  · exact h

theorem takeLineup {version index count : Nat} {records : List RawService} (h : s.MeterLaw) :
    (s.takeLineup version index count records).MeterLaw := by
  have added {s : State} (h : s.MeterLaw) : (records.foldl (fun s r => s.addService r) s).MeterLaw :=
    .foldl (fun _ r h => h.addService r) records h
  have cleared : (s.setLineup []).promoteKeys.MeterLaw := h
  have emptied : s.emptyLineup.MeterLaw := cleared.judgeLapses.rerunAll
  exact .ite (added emptied.framed) (.ite h (.ite h (added h)))

theorem setCatalogue {l : List Title} (h : s.MeterLaw) : (s.setCatalogue l).MeterLaw := by
  have set : (s.onBilling fun b => { b with catalogue := l }).MeterLaw := h
  exact set.judgeLapses.rerunAll

theorem addTitle (raw : RawTitle) (h : s.MeterLaw) : (s.addTitle raw).MeterLaw := by
  unfold State.addTitle
  split
  · split
    · exact h.setCatalogue
    · exact h
  · exact h

theorem takeCatalogue {version index count : Nat} {records : List RawTitle} (h : s.MeterLaw) :
    (s.takeCatalogue version index count records).MeterLaw := by
  have added {s : State} (h : s.MeterLaw) : (records.foldl (fun s r => s.addTitle r) s).MeterLaw :=
    .foldl (fun _ r h => h.addTitle r) records h
  exact .ite (added h.setCatalogue.framed) (.ite h (.ite h (added h)))

theorem takeTier {tier : Nat} {granted : Bool} (h : s.MeterLaw) : (s.takeTier tier granted).MeterLaw := by
  unfold State.takeTier
  split
  · exact h
  · exact .ite h (.ite h h)

theorem takePolicy {p : Policy} (h : s.MeterLaw) : (s.takePolicy p).MeterLaw := .ite h (.ite h h)

theorem takeRates {r : Rates} (h : s.MeterLaw) : (s.takeRates r).MeterLaw := .ite h (.ite h h)

theorem takeTime {new : PTime} (h : s.MeterLaw) : (s.takeTime new).MeterLaw := by
  unfold State.takeTime
  split
  · have told : (s.leaveUnset new).MeterLaw := rerunAll h
    exact told.framed
  · exact .ite h h

theorem takeRelease {upTo : Nat} (h : s.MeterLaw) : (s.takeRelease upTo).MeterLaw := .ite h (.ite h.beginRelease h)

/-! ## The bodies of messages -/

theorem takeGrant (m : MsgBody) (s : State) (h : s.MeterLaw) : (s.takeGrant m).MeterLaw := by
  unfold State.takeGrant
  split
  · exact h.takeTier
  · exact h

theorem takeRevocation (m : MsgBody) (s : State) (h : s.MeterLaw) : (s.takeRevocation m).MeterLaw := by
  unfold State.takeRevocation
  split
  · exact h.takeTier
  · exact h

theorem takeLineupBody (m : MsgBody) (s : State) (h : s.MeterLaw) : (s.takeLineupBody m).MeterLaw := by
  unfold State.takeLineupBody
  split
  · exact h.takeLineup
  · exact h

theorem takeCatalogueBody (m : MsgBody) (s : State) (h : s.MeterLaw) : (s.takeCatalogueBody m).MeterLaw := by
  unfold State.takeCatalogueBody
  split
  · exact h.takeCatalogue
  · exact h

theorem takePolicyBody (m : MsgBody) (s : State) (h : s.MeterLaw) : (s.takePolicyBody m).MeterLaw := by
  unfold State.takePolicyBody
  split
  · exact h.takePolicy
  · exact h

theorem takeRatesBody (m : MsgBody) (s : State) (h : s.MeterLaw) : (s.takeRatesBody m).MeterLaw := by
  unfold State.takeRatesBody
  split
  · exact h.takeRates
  · exact h

theorem takeGroupKey (m : MsgBody) (s : State) (h : s.MeterLaw) : (s.takeGroupKey m).MeterLaw := by
  unfold State.takeGroupKey
  split
  · split
    · exact .ite h.takeAccessOp h
    · exact h
  · exact h

theorem takeRevokeGroup (m : MsgBody) (s : State) (h : s.MeterLaw) : (s.takeRevokeGroup m).MeterLaw := by
  unfold State.takeRevokeGroup
  split
  · exact h.takeAccessOp
  · exact h

theorem takeKeyDelivery (m : MsgBody) (s : State) (h : s.MeterLaw) : (s.takeKeyDelivery m).MeterLaw := by
  unfold State.takeKeyDelivery
  split
  · split
    · exact .ite h h
    · exact h
  · exact h

theorem takeReleaseBody (m : MsgBody) (s : State) (h : s.MeterLaw) : (s.takeReleaseBody m).MeterLaw := by
  unfold State.takeReleaseBody
  split
  · exact h.takeRelease
  · exact h

theorem takeTimeBody (m : MsgBody) (s : State) (h : s.MeterLaw) : (s.takeTimeBody m).MeterLaw := by
  unfold State.takeTimeBody
  split
  · exact h.takeTime
  · exact h

theorem takeFullReset (m : MsgBody) (s : State) (h : s.MeterLaw) : (s.takeFullReset m).MeterLaw := by
  unfold State.takeFullReset
  split
  · exact .ite h h
  · exact h

/-! ## Distribution cells -/

theorem passMedia {n count : Nat} {payload : List Byte} {sc : Scramble} (h : s.MeterLaw) :
    (s.passMedia n count payload sc).MeterLaw := by
  unfold State.passMedia
  split
  · exact h.cellDecoded
  · exact h
  · split
    · exact h.cellDecoded
    · exact h
  · exact h

theorem arriveMedia {cell : List Byte} (h : s.MeterLaw) : (s.arriveMedia cell).MeterLaw := by
  unfold State.arriveMedia
  split
  · exact .ite (.passMedia (.ite (rerun h) h)) h
  · exact h

theorem programmeChanged {n : Nat} {before : State} (h : s.MeterLaw) : (s.programmeChanged n before).MeterLaw :=
  h.judgeLapses.rerun

theorem arriveDescriptor {cell : List Byte} (h : s.MeterLaw) : (s.arriveDescriptor cell).MeterLaw :=
  .ite (.ite (programmeChanged h) h) h

/-! ## Requests -/

theorem present {r : ChargeRecord} (h : s.MeterLaw) : (s.present r).MeterLaw := presentedChanged h

theorem tuneTo {o : Screen} {n : Nat} (h : s.MeterLaw) : (s.tuneTo o n).MeterLaw := .ite h (.ite h h.applyRoute)

theorem switchOff {o : Screen} (h : s.MeterLaw) : (s.switchOff o).MeterLaw := by
  have routed : (if (s.output o).route.isSome then s.applyRoute o none else s).MeterLaw := .ite h.applyRoute h
  exact .ite h (rerunAll routed)

theorem beginBuy {p : Purchase} (h : s.MeterLaw) : (s.beginBuy p).MeterLaw := fallDue (by simp) h

theorem cancelOwned {p : Purchase} (h : s.MeterLaw) : (s.cancelOwned p).MeterLaw := by
  unfold State.cancelOwned
  split
  · exact h.reply
  · exact .ite h.reply (.ite h.reply (fallDue (by simp) h))

theorem tryUnlock {room : Bool} {screen pin : Nat} (h : s.MeterLaw) : (s.tryUnlock room screen pin).MeterLaw :=
  .ite h.reply (.ite h.reply (.ite h (.ite h.grant.reply h)))

theorem trySetPin {old : Option Nat} {new : Nat} (h : s.MeterLaw) : (s.trySetPin old new).MeterLaw :=
  .ite h.reply (.ite h h)

theorem emptyProgrammes (h : s.MeterLaw) : s.emptyProgrammes.MeterLaw := rerun (judgeLapses h)

theorem restartOutputs (h : s.MeterLaw) : s.restartOutputs.MeterLaw := rerun h

theorem beginProvision {p : Provision} (h : s.MeterLaw) : (s.beginProvision p).MeterLaw := by
  have kept : (if p.newRoom then s.onKeys (·.map fun k => { k with next := none }) else s).MeterLaw := .ite h h
  exact kept

/-! ## Power, start-up and the line (R142, R178) -/

/-- A start-up has one meter table, and no write in flight. -/
theorem startedWith {r : Retained} {boot : Boot} {fastBaud maintenance : Bool}
    (h : Machine.MeterLaw r.meter r.reserved) : (startedWith r boot fastBaud maintenance s).MeterLaw :=
  ⟨h, h, fun _ hi => by cases hi⟩

theorem closeFound (h : s.MeterLaw) : s.closeFound.MeterLaw := h.closeOldest

theorem startUp {boot : Boot} {fastBaud maintenance : Bool} (h : s.MeterLaw) :
    (s.startUp boot fastBaud maintenance).MeterLaw := by
  have started : (Machine.startedWith (s.store.checked boot.storeIntact) boot fastBaud maintenance s).MeterLaw :=
    .startedWith (meterLaw_checked _ h.2.1)
  exact .closeFound (.ite started started)

theorem fullReset {boot : Boot} (h : s.MeterLaw) : (s.fullReset boot).MeterLaw := h.startUp

theorem powerDown (h : s.MeterLaw) : s.powerDown.MeterLaw :=
  startedWith (s := s) (boot := ⟨true, true, true, true, true⟩) (fastBaud := false) (maintenance := false) h.2.1

theorem finishStartUp (h : s.MeterLaw) : s.finishStartUp.MeterLaw := by
  rw [finishStartUp_eq]
  exact h

theorem breakLine {boot : Boot} (h : s.MeterLaw) : (s.breakLine boot).MeterLaw := by
  have gap : s.breakGap.MeterLaw := .ite h h
  exact .ite (fullReset gap) gap

theorem replySent {boot : Boot} (h : s.MeterLaw) : (s.replySent boot).MeterLaw := by
  unfold State.replySent
  split
  · exact .ite (fullReset h) (startSending h)
  · exact h

/-! ## Completions of durable writes -/

theorem openFolio {folio limit : Nat} {pin : Option Nat} {ceiling : Nat} (h : s.MeterLaw) :
    (s.openFolio folio limit pin ceiling).MeterLaw := by
  have opened : ((s.endRoomWrite.durably fun r =>
      (r.onRoom (.newFolio folio limit)).onLock (.newFolio pin ceiling)).lockoutEnded s).MeterLaw := lockoutEnded h
  exact .lockFreed (.rerunAll (judgeLapses opened))

theorem replacePin {pin : Option Nat} (h : s.MeterLaw) : (s.replacePin pin).MeterLaw := by
  unfold State.replacePin
  split <;> exact h

theorem closeForSuspension (h : s.MeterLaw) : s.closeForSuspension.MeterLaw := advanceSuspend h

theorem completeCheckOut {settling : Option Nat} (h : s.MeterLaw) : (s.completeCheckOut settling).MeterLaw :=
  .lockFreed (.takeNextFolio (.markGuestWaits (rerunAll h)))

theorem enterNewRoom {p : Provision} (h : s.MeterLaw) : (s.enterNewRoom p).MeterLaw := rerunAll h

theorem sell {p : Purchase} (h : s.MeterLaw) : (s.sell p).MeterLaw := .ite (occupancyRose h) h

theorem refund {p : Purchase} {stamp : PTime} (h : s.MeterLaw) : (s.refund p stamp).MeterLaw :=
  .ite (occupancyRose h) h

/-- A close takes the session from both tables; the images of writes in flight are as they were (R141). -/
theorem endSession {x : Session} {stamp : PTime} {charged : Bool} (h : s.MeterLaw) :
    (s.endSession x stamp charged).MeterLaw := by
  have ended : (s.durably (.endSession x.service)).MeterLaw :=
    ⟨meterLaw_endSession _ h.1, meterLaw_endSession _ h.2.1, h.2.2⟩
  exact .ite ended ended.occupancyFell

theorem afterClose {n : Nat} (h : s.MeterLaw) : (s.afterClose n).MeterLaw := by
  have told : (s.turnsAdvance.rerun (s.routedOrSlated n)).MeterLaw := h.turnsAdvance.rerun
  exact .ite (closeFound told) (.advanceCheckOut (advanceSuspend told))

/-- A meter write makes its image durable (R137). -/
theorem takeImage {image : MeterImage} (hi : Machine.MeterLaw image.meter image.reserved) (h : s.MeterLaw) :
    (s.onStore (.takeImage image)).MeterLaw :=
  ⟨h.1, hi, h.2.2⟩

theorem nextMeterWrite (h : s.MeterLaw) : s.nextMeterWrite.MeterLaw := .ite (fallDue (by simp) h) h.turnsAdvance

theorem nextPresentation (h : s.MeterLaw) : s.nextPresentation.MeterLaw := .ite (fallDue (by simp) h) h.turnsAdvance

theorem nextPolicy (h : s.MeterLaw) : s.nextPolicy.MeterLaw := by
  unfold State.nextPolicy
  split
  · exact takePolicy h
  · exact h

theorem nextRates (h : s.MeterLaw) : s.nextRates.MeterLaw := by
  unfold State.nextRates
  split
  · exact takeRates h
  · exact h

theorem judgeSettling (h : s.MeterLaw) : s.judgeSettling.MeterLaw := .ite (.ite (rerunAll h) h) h

theorem judgeArmed {old : Settings} (h : s.MeterLaw) : (s.judgeArmed old).MeterLaw := .ite h h

/-! ## Clocks and deadlines -/

theorem tickTime (h : s.MeterLaw) : s.tickTime.MeterLaw := by
  unfold State.tickTime
  split <;> exact h

theorem viewingChanged (h : s.MeterLaw) : s.viewingChanged.MeterLaw := h

theorem countViewing (h : s.MeterLaw) : s.countViewing.MeterLaw := by
  unfold State.countViewing
  extract_lets played shown new several allowance previews counted told
  have ordered : (counted.useOrder several).MeterLaw := .ite (c := several = true) h h
  have htold : told.MeterLaw := ordered
  clear_value told
  exact .ite htold (viewingChanged htold)

theorem count_service (shown : Bool) (terms : Option MeterTerms) (x : Session) :
    (x.count shown terms).service = x.service := by
  unfold Session.count
  split <;> rfl

theorem countMetered (h : s.MeterLaw) : s.countMetered.MeterLaw := by
  have counted : (s.onCur fun r => { r with meter := s.meterCounted }).MeterLaw :=
    h.setMeter (services_map (fun _ => count_service ..) s.cur.meter)
  rw [countMetered_eq]
  exact .ite (meterChanged counted) counted

theorem tick (h : s.MeterLaw) : s.tick.MeterLaw := by
  have timed : (s.onTime fun c => { c with nextTick := c.nextTick + 1000 }).tickTime.MeterLaw := tickTime h
  exact .countMetered (.ite (countViewing timed) timed)

theorem expire {p : Purchase} (h : s.MeterLaw) : (s.expire p).MeterLaw := rerunAll h

theorem accrue {x : Session} {net : Nat} (h : s.MeterLaw) : (s.accrue x net).MeterLaw := by
  refine .meterChanged (.addDaySpend (h.setMeter ?_))
  exact services_onSession (f := fun y => { y with blocks := countUp y.blocks, net := y.net + net }) (fun _ => rfl)
    x.service s.cur

theorem judgeBlock {x : Session} {terms : MeterTerms} (h : s.MeterLaw) : (s.judgeBlock x terms).MeterLaw := by
  refine .ite ?_ h.beginClose.rerun
  split
  · exact .ite h.accrue h.accrue
  · exact h.accrue

theorem emptyDaySpend (h : s.MeterLaw) : s.emptyDaySpend.MeterLaw := .ite h (meterChanged h)

theorem follow_service (now : Nat) (shown : Bool) (x : Session) : (x.follow now shown).service = x.service := by
  unfold Session.follow
  split <;> split <;> rfl

theorem judgeSessions (h : s.MeterLaw) : s.judgeSessions.MeterLaw := by
  have followed : (s.onCur fun r => { r with meter := s.followed }).MeterLaw :=
    h.setMeter (services_map (fun _ => follow_service ..) s.cur.meter)
  have written : (if s.followed = s.cur.meter then s.onCur fun r => { r with meter := s.followed }
      else (s.onCur fun r => { r with meter := s.followed }).meterChanged).MeterLaw :=
    .ite followed followed.meterChanged
  rw [judgeSessions_eq]
  exact .ite written written.rerun

theorem showAll (h : s.MeterLaw) : s.showAll.MeterLaw := by
  have told : (s.onOutputs .show |>.raiseTimes .route
      (changedShown s.router.outputs (s.onOutputs .show).router.outputs)).MeterLaw := raiseTimes h
  exact .ite told.judgeLapses.judgeSessions told

theorem probe {o : Screen} {display : Bool} (h : s.MeterLaw) : (s.probe o display).MeterLaw := .ite (rerun h) h

theorem endUnlock {which : Option Screen} (h : s.MeterLaw) : (s.endUnlock which).MeterLaw := .ite h (rerunAll h)

end Sys2Proof.Machine.State.MeterLaw
end

section
/-! PROOF. Every command, and so every step, keeps the law of the meter tables (R135, R148; O56): one lemma for each
command whose effect has cases. -/

namespace Sys2Proof.Machine.State.MeterLaw

variable {s s' : State} {t : Nat}

/-! ## What commands are made of -/

/-- A command that occurs keeps the law where its effect does. -/
theorem occurs {f : State → State} (hs : Machine.occurs t f s = .next s')
    (hf : ∀ s : State, s.MeterLaw → (f s).MeterLaw) (h : s.MeterLaw) : s'.MeterLaw := by
  cases hs
  exact .ite h (hf _ h)

theorem occursMessage {k : MsgKind} {f : Message → State → State}
    (hs : Machine.occurs t (·.dispatch k f) s = .next s')
    (hf : ∀ m (s : State), s.MeterLaw → (f m s).MeterLaw) (h : s.MeterLaw) : s'.MeterLaw :=
  h.occurs hs fun _ h => h.dispatch hf

theorem occursRequest {kind : Nat} {group : Group} {f : List Byte → State → State}
    (hs : Machine.occurs t (·.request kind group f) s = .next s')
    (hf : ∀ b (s : State), s.MeterLaw → (f b s).MeterLaw) (h : s.MeterLaw) : s'.MeterLaw :=
  h.occurs hs fun s h => h.request fun b => hf b s h

/-- A query is replied, whatever it carries (R165 to R169). -/
theorem occursQuery {kind : Nat} {group : Group} {fields : List Byte → State → List Byte}
    (hs : Machine.occurs t (·.request kind group fun b s => s.reply .ok (fields b s)) s = .next s')
    (h : s.MeterLaw) : s'.MeterLaw :=
  h.occursRequest hs fun _ _ h => h.reply

/-! ## The set-port line -/

theorem execFrameTransmitted {boot : Boot} (hs : execFrameTransmitted t boot s = .next s') (h : s.MeterLaw) :
    s'.MeterLaw := by
  refine h.occurs hs fun s h => ?_
  split
  · exact h
  · exact h.replySent
  · exact startSending h

theorem execChargePresented (hs : execChargePresented t s = .next s') (h : s.MeterLaw) : s'.MeterLaw := by
  refine h.occurs hs fun s h => ?_
  split
  · exact .ite h.present h
  · exact h

/-! ## Requests -/

theorem execStatus (hs : execStatus t s = .next s') (h : s.MeterLaw) : s'.MeterLaw := by
  refine h.occursRequest hs fun b s h => ?_
  split <;> exact h.reply

theorem execClearEvents (hs : execClearEvents t s = .next s') (h : s.MeterLaw) : s'.MeterLaw := by
  refine h.occursRequest hs fun b s h => ?_
  split <;> exact reply h

theorem execSetEventMask (hs : execSetEventMask t s = .next s') (h : s.MeterLaw) : s'.MeterLaw := by
  refine h.occursRequest hs fun b s h => ?_
  split <;> exact reply h

theorem execJournalRead (hs : execJournalRead t s = .next s') (h : s.MeterLaw) : s'.MeterLaw := by
  refine h.occursRequest hs fun b s h => ?_
  split
  · exact h.present.reply
  · exact h.reply

theorem execJournalMode (hs : execJournalMode t s = .next s') (h : s.MeterLaw) : s'.MeterLaw := by
  refine h.occursRequest hs fun b s h => ?_
  split <;> exact reply h

theorem execTune (hs : execTune t s = .next s') (h : s.MeterLaw) : s'.MeterLaw := by
  refine h.occursRequest hs fun b s h => ?_
  split
  · exact h.tuneTo.reply
  · exact h.reply

theorem execScreenOff (hs : execScreenOff t s = .next s') (h : s.MeterLaw) : s'.MeterLaw := by
  refine h.occursRequest hs fun b s h => ?_
  split
  · exact h.switchOff.reply
  · exact h.reply

theorem execRouteRelease (hs : execRouteRelease t s = .next s') (h : s.MeterLaw) : s'.MeterLaw :=
  h.occursRequest hs fun _ _ h => .reply (.ite h.endHold h)

theorem execRelock (hs : execRelock t s = .next s') (h : s.MeterLaw) : s'.MeterLaw := by
  refine h.occursRequest hs fun b s h => ?_
  split
  · exact .reply (rerunAll h)
  · exact .reply (rerunAll h)
  · exact h.reply

theorem execQuote (hs : execQuote t s = .next s') (h : s.MeterLaw) : s'.MeterLaw := by
  refine h.occursRequest hs fun b s h => ?_
  split <;> exact h.reply

theorem execBuy (hs : execBuy t s = .next s') (h : s.MeterLaw) : s'.MeterLaw := by
  refine h.occursRequest hs fun b s h => ?_
  split
  · exact h.reply
  · exact .ite h.beginBuy h.reply

theorem execCancel (hs : execCancel t s = .next s') (h : s.MeterLaw) : s'.MeterLaw := by
  refine h.occursRequest hs fun b s h => .ite h.reply ?_
  split
  · exact h.reply
  · exact h.cancelOwned

theorem execUnlock (hs : execUnlock t s = .next s') (h : s.MeterLaw) : s'.MeterLaw := by
  refine h.occursRequest hs fun b s h => ?_
  split
  · exact h.tryUnlock
  · exact h.reply

theorem execSetPin (hs : execSetPin t s = .next s') (h : s.MeterLaw) : s'.MeterLaw := by
  refine h.occursRequest hs fun b s h => ?_
  split
  · exact h.trySetPin
  · exact h.reply

theorem execRestartStreams (hs : execRestartStreams t s = .next s') (h : s.MeterLaw) : s'.MeterLaw := by
  refine h.occursRequest hs fun b s h => ?_
  have restarted : s.restartEngines.MeterLaw := h
  exact restarted.emptyProgrammes.restartOutputs.reply

theorem execSettingsWrite (hs : execSettingsWrite t s = .next s') (h : s.MeterLaw) : s'.MeterLaw := by
  refine h.occursRequest hs fun b s h => ?_
  split
  · exact h.reply
  · exact .ite h.reply h

theorem execProvision (hs : execProvision t s = .next s') (h : s.MeterLaw) : s'.MeterLaw :=
  h.occursRequest hs fun _ _ h => .ite h.reply (.ite h.reply h.beginProvision)

theorem execUnknownRequest (hs : execUnknownRequest t s = .next s') (h : s.MeterLaw) : s'.MeterLaw := by
  refine h.occurs hs fun s h => ?_
  unfold State.beginRequest
  split
  · exact .ite h.reply h
  · exact h

/-! ## Completions of durable writes -/

theorem execKeptReleaseBegin (hs : execKeptReleaseBegin t s = .next s') (h : s.MeterLaw) : s'.MeterLaw := by
  refine h.occurs hs fun s h => ?_
  split
  · exact .ite (beginRelease h) h
  · exact h

theorem execNewFolioWriteComplete (hs : execNewFolioWriteComplete t s = .next s') (h : s.MeterLaw) :
    s'.MeterLaw := by
  refine h.occurs hs fun s h => ?_
  split
  · exact h.openFolio
  · exact h

theorem execFolioUpdateWriteComplete (hs : execFolioUpdateWriteComplete t s = .next s') (h : s.MeterLaw) :
    s'.MeterLaw := by
  refine h.occurs hs fun s h => ?_
  split
  case h_1 limit pin _ =>
    have set : (s.endRoomWrite.setLimit limit).MeterLaw := h
    exact .lockFreed (moneyChanged (set.replacePin (pin := pin)))
  case h_2 => exact h

theorem execLimitWriteComplete (hs : execLimitWriteComplete t s = .next s') (h : s.MeterLaw) : s'.MeterLaw := by
  refine h.occurs hs fun s h => ?_
  split
  · exact moneyChanged h
  · exact h

theorem execSuspendWriteComplete (hs : execSuspendWriteComplete t s = .next s') (h : s.MeterLaw) :
    s'.MeterLaw := by
  refine h.occurs hs fun s h => ?_
  split
  · have closed : (s.setSuspended true).closeForSuspension.MeterLaw := closeForSuspension h
    exact rerunAll closed
  · exact h

theorem execResumeWriteComplete (hs : execResumeWriteComplete t s = .next s') (h : s.MeterLaw) : s'.MeterLaw := by
  refine h.occurs hs fun s h => ?_
  split
  · exact .rerunAll (powerEngines h)
  · exact h

theorem execLockdownWriteComplete (hs : execLockdownWriteComplete t s = .next s') (h : s.MeterLaw) :
    s'.MeterLaw := by
  refine h.occurs hs fun s h => ?_
  split
  · exact .rerunAll (.ite h h)
  · exact h

theorem execCheckoutClearingComplete (hs : execCheckoutClearingComplete t s = .next s') (h : s.MeterLaw) :
    s'.MeterLaw := by
  refine h.occurs hs fun s h => ?_
  split
  · exact h.completeCheckOut
  · exact h

theorem execProvisionWriteComplete (hs : execProvisionWriteComplete t s = .next s') (h : s.MeterLaw) :
    s'.MeterLaw := by
  refine h.occurs hs fun s h => ?_
  split
  case h_1 p _ =>
    have done : (let ended := s.onPort fun q => { q with provision := none }
        if p.newRoom then ended.enterNewRoom p else ended.durably (.sameRoom p)).MeterLaw :=
      .ite (enterNewRoom h) h
    exact .lockFreed (.reply (.ite done done))
  case h_2 => exact h

theorem execCeilingWriteComplete (hs : execCeilingWriteComplete t s = .next s') (h : s.MeterLaw) :
    s'.MeterLaw := by
  refine h.occurs hs fun s h => ?_
  split
  · exact .lockFreed (.judgeLapses (rerunAll h))
  · exact h

theorem execBarWriteComplete (hs : execBarWriteComplete t s = .next s') (h : s.MeterLaw) : s'.MeterLaw := by
  refine h.occurs hs fun s h => ?_
  split
  · exact .lockFreed (rerunAll h)
  · exact h

theorem execPinResetWriteComplete (hs : execPinResetWriteComplete t s = .next s') (h : s.MeterLaw) :
    s'.MeterLaw := by
  refine h.occurs hs fun s h => ?_
  split
  · exact .lockFreed (lockoutEnded h)
  · exact h

theorem execSetPinWriteComplete (hs : execSetPinWriteComplete t s = .next s') (h : s.MeterLaw) : s'.MeterLaw := by
  refine h.occurs hs fun s h => ?_
  split
  · exact .lockFreed (reply h)
  · exact h

theorem execPinFailureWriteComplete (hs : execPinFailureWriteComplete t s = .next s') (h : s.MeterLaw) :
    s'.MeterLaw := by
  refine h.occurs hs fun s h => ?_
  split
  · exact .ite (.lockFreed (reply h)) (.lockFreed (reply h))
  · exact h

theorem execUnlockWriteComplete (hs : execUnlockWriteComplete t s = .next s') (h : s.MeterLaw) : s'.MeterLaw := by
  refine h.occurs hs fun s h => ?_
  split
  · exact .lockFreed (.reply (grant h))
  · exact h

theorem execLockoutClearWriteComplete (hs : execLockoutClearWriteComplete t s = .next s') (h : s.MeterLaw) :
    s'.MeterLaw := by
  refine h.occurs hs fun s h => ?_
  split
  · exact lockFreed h
  · exact h

theorem execBuyWriteComplete (hs : execBuyWriteComplete t s = .next s') (h : s.MeterLaw) : s'.MeterLaw := by
  refine h.occurs hs fun s h => ?_
  split
  case h_1 p rest hw =>
    have sold : ((s.onTurns fun _ => rest).sell p).MeterLaw := (h.taken hw).sell
    exact .rerunAll (.reply (turnsAdvance sold))
  case h_2 => exact h

theorem execCancelWriteComplete (hs : execCancelWriteComplete t s = .next s') (h : s.MeterLaw) : s'.MeterLaw := by
  refine h.occurs hs fun s h => ?_
  split
  case h_1 p stamp rest hw =>
    have refunded : ((s.onTurns fun _ => rest).refund p stamp).MeterLaw := (h.taken hw).refund
    exact .rerunAll (.reply (turnsAdvance refunded))
  case h_2 => exact h

theorem execMeterCloseComplete {service : Nat} (hs : execMeterCloseComplete t service s = .next s')
    (h : s.MeterLaw) : s'.MeterLaw := by
  refine h.occurs hs fun s h => ?_
  split
  case h_1 hw _ => exact (h.taken hw).endSession.afterClose
  case h_2 => exact h

/-- The image a meter write makes durable is lawful, as the write was in flight. -/
theorem execMeterWriteComplete (hs : execMeterWriteComplete t s = .next s') (h : s.MeterLaw) : s'.MeterLaw := by
  refine h.occurs hs fun s h => ?_
  split
  case h_1 image rest hw => exact ((h.taken hw).takeImage (h.2.2 image (takeBegun_mem hw))).nextMeterWrite
  case h_2 => exact h

theorem execExpiryWriteComplete {title : Nat} (hs : execExpiryWriteComplete t title s = .next s')
    (h : s.MeterLaw) : s'.MeterLaw := by
  refine h.occurs hs fun s h => ?_
  split <;> exact h

theorem execPolicyWriteComplete (hs : execPolicyWriteComplete t s = .next s') (h : s.MeterLaw) : s'.MeterLaw := by
  refine h.occurs hs fun s h => ?_
  split
  · exact .nextPolicy (.rerunAll (judgeLapses h))
  · exact h

theorem execRatesWriteComplete (hs : execRatesWriteComplete t s = .next s') (h : s.MeterLaw) : s'.MeterLaw := by
  refine h.occurs hs fun s h => ?_
  split
  · exact nextRates h
  · exact h

theorem execTierWriteComplete (hs : execTierWriteComplete t s = .next s') (h : s.MeterLaw) : s'.MeterLaw := by
  refine h.occurs hs fun s h => ?_
  split
  · exact rerunAll h
  · exact h

theorem execReleaseWriteComplete (hs : execReleaseWriteComplete t s = .next s') (h : s.MeterLaw) :
    s'.MeterLaw := by
  refine h.occurs hs fun s h => ?_
  split
  case h_1 numbers cs _ rest hw =>
    have freed := h.taken hw
    have dropped : ((s.onTurns fun _ => rest).dropReleased numbers cs).MeterLaw := freed
    exact dropped.occupancyFell.turnsAdvance.rerun.judgeSettling
  case h_2 => exact h

theorem execPresentationWriteComplete (hs : execPresentationWriteComplete t s = .next s') (h : s.MeterLaw) :
    s'.MeterLaw := by
  refine h.occurs hs fun s h => ?_
  split
  case h_1 hw =>
    have freed := h.taken hw
    exact nextPresentation freed
  case h_2 => exact h

theorem execAccessKeyInstallComplete {group : Nat} (hs : execAccessKeyInstallComplete t group s = .next s')
    (h : s.MeterLaw) : s'.MeterLaw := by
  refine h.occurs hs fun s h => ?_
  split
  · exact nextAccessOp h
  · exact h

theorem execGroupRevokeComplete {group : Nat} (hs : execGroupRevokeComplete t group s = .next s')
    (h : s.MeterLaw) : s'.MeterLaw := by
  refine h.occurs hs fun s h => ?_
  split
  · exact nextAccessOp h
  · exact h

theorem execSettingsWriteComplete (hs : execSettingsWriteComplete t s = .next s') (h : s.MeterLaw) :
    s'.MeterLaw := by
  refine h.occurs hs fun s h => ?_
  split
  · exact .reply (.judgeArmed (judgePower h))
  · exact h

/-! ## Clocks and deadlines -/

theorem execPurchaseExpiry {title : Nat} (hs : execPurchaseExpiry t title s = .next s') (h : s.MeterLaw) :
    s'.MeterLaw := by
  refine h.occurs hs fun s h => ?_
  split
  · refine .ite h ?_
    dsimp only
    split
    · exact expire h
    · exact h
  · exact h

theorem execBlockAccrual {service : Nat} (hs : execBlockAccrual t service s = .next s') (h : s.MeterLaw) :
    s'.MeterLaw := by
  refine h.occurs hs fun s h => ?_
  split
  · exact .ite h.judgeBlock h
  · exact h

theorem execNoSignalDeadline {service : Nat} (hs : execNoSignalDeadline t service s = .next s') (h : s.MeterLaw) :
    s'.MeterLaw := by
  refine h.occurs hs fun s h => ?_
  split
  · exact .ite (rerun h) h
  · exact h

theorem execStalenessDeadline {service : Nat} (hs : execStalenessDeadline t service s = .next s')
    (h : s.MeterLaw) : s'.MeterLaw := by
  refine h.occurs hs fun s h => ?_
  split
  · exact .ite (programmeChanged h) h
  · exact h

theorem execNoKeyDeadline {e : EngineId} (hs : execNoKeyDeadline t e s = .next s') (h : s.MeterLaw) :
    s'.MeterLaw := by
  refine h.occurs hs fun s h => ?_
  split
  · exact .ite (rerun h) h
  · exact h

theorem execWarmUpEnd {e : EngineId} (hs : execWarmUpEnd t e s = .next s') (h : s.MeterLaw) : s'.MeterLaw := by
  refine h.occurs hs fun s h => ?_
  split
  · have ended : (s.endWarmUp e).1.promoteKeys.MeterLaw := h.endWarmUp
    exact .ite ended.rerun h
  · exact h

theorem execIdleDeadline {e : EngineId} (hs : execIdleDeadline t e s = .next s') (h : s.MeterLaw) :
    s'.MeterLaw := by
  refine h.occurs hs fun s h => ?_
  split
  · exact .ite h h
  · exact h

theorem execUnlockEndInstant {screen : Option Screen} (hs : execUnlockEndInstant t screen s = .next s')
    (h : s.MeterLaw) : s'.MeterLaw := by
  refine h.occurs hs fun s h => ?_
  split
  · exact .ite h.endUnlock h
  · exact h

theorem execRejoinExpiry {service : Nat} (hs : execRejoinExpiry t service s = .next s') (h : s.MeterLaw) :
    s'.MeterLaw := by
  refine h.occurs hs fun s h => ?_
  split
  · exact .ite h.beginClose.rerun h
  · exact h

/-! ## Every command and every step -/

/-- Every command keeps the law. -/
theorem exec (c : Instr) (hs : Machine.exec c s = .next s') (h : s.MeterLaw) : s'.MeterLaw := by
  cases c with
  | powerOn fastBaud maintenance boot => cases hs; exact startUp h
  | startUpStage5 t =>
    exact h.occurs (show execStartUpStage5 t s = _ from hs) fun _ h => .ite h.finishStartUp h
  | lineBreak t boot => exact h.occurs (show execLineBreak t boot s = _ from hs) fun _ h => .ite h.breakLine h
  | lineBreakEnd t => exact h.occurs (show execLineBreakEnd t s = _ from hs) fun _ h => startSending h
  | frameReceived t chars =>
    exact h.occurs (show execFrameReceived t chars s = _ from hs) fun _ h =>
      .foldl (fun _ c h => h.arriveChar c) chars h
  | frameGapTimeout t => exact h.occurs (show execFrameGapTimeout t s = _ from hs) fun _ h => .ite h h
  | frameTransmitted t boot => exact h.execFrameTransmitted hs
  | chargePresented t => exact h.execChargePresented hs
  | status t => exact h.execStatus hs
  | screenStatus t => exact h.occursQuery hs
  | lineupRead t => exact h.occursQuery hs
  | catalogueRead t => exact h.occursQuery hs
  | readEvents t => exact h.occursQuery hs
  | clearEvents t => exact h.execClearEvents hs
  | setEventMask t => exact h.execSetEventMask hs
  | journalRead t => exact h.execJournalRead hs
  | journalRewind t => exact h.occursRequest hs fun _ _ h => reply h
  | journalMode t => exact h.execJournalMode hs
  | settingsRead t => exact h.occursQuery hs
  | tune t => exact h.execTune hs
  | screenOff t => exact h.execScreenOff hs
  | routeHold t => exact h.occursRequest hs fun _ _ h => reply h
  | routeRelease t => exact h.execRouteRelease hs
  | relock t => exact h.execRelock hs
  | quote t => exact h.execQuote hs
  | buy t => exact h.execBuy hs
  | cancel t => exact h.execCancel hs
  | unlock t => exact h.execUnlock hs
  | setPin t => exact h.execSetPin hs
  | restartStreams t => exact h.execRestartStreams hs
  | settingsWrite t => exact h.execSettingsWrite hs
  | provision t => exact h.execProvision hs
  | fullReset t => exact h.occursRequest hs fun _ _ h => h.replyWith
  | unknownRequest t => exact h.execUnknownRequest hs
  | mediaCell t cell => exact h.occurs (show execMediaCell t cell s = _ from hs) fun _ h => h.arriveMedia
  | descriptorCell t cell =>
    exact h.occurs (show execDescriptorCell t cell s = _ from hs) fun _ h => h.arriveDescriptor
  | managementCell t cell =>
    exact h.occurs (show execManagementCell t cell s = _ from hs) fun _ h => .ite h.handOver h
  | filler t cell => exact h.occurs (show execFiller t cell s = _ from hs) fun _ h => h
  | checkIn t => exact h.occursMessage hs receiveRoom
  | checkOut t => exact h.occursMessage hs receiveRoom
  | setLimit t => exact h.occursMessage hs receiveRoom
  | serviceOpen t => exact h.occursMessage hs receiveRoom
  | serviceClose t => exact h.occursMessage hs receiveRoom
  | suspend t => exact h.occursMessage hs receiveRoom
  | resume t => exact h.occursMessage hs receiveRoom
  | lockdown t => exact h.occursMessage hs receiveRoom
  | pinReset t => exact h.occursMessage hs receiveLock
  | setCeiling t => exact h.occursMessage hs receiveLock
  | bar t => exact h.occursMessage hs receiveLock
  | grantTier t => exact h.occursMessage hs (receive takeGrant)
  | revokeTier t => exact h.occursMessage hs (receive takeRevocation)
  | groupKey t => exact h.occursMessage hs (receive takeGroupKey)
  | revokeGroup t => exact h.occursMessage hs (receive takeRevokeGroup)
  | releaseCharges t => exact h.occursMessage hs (receive takeReleaseBody)
  | setTime t => exact h.occursMessage hs (receive takeTimeBody)
  | lineup t => exact h.occursMessage hs (receive takeLineupBody)
  | catalogue t => exact h.occursMessage hs (receive takeCatalogueBody)
  | keyDelivery t => exact h.occursMessage hs (receive takeKeyDelivery)
  | setPolicy t => exact h.occursMessage hs (receive takePolicyBody)
  | setRates t => exact h.occursMessage hs (receive takeRatesBody)
  | fullResetMessage t => exact h.occursMessage hs (receive takeFullReset)
  | heldMessageTaken t =>
    exact h.occurs (show execHeldMessageTaken t s = _ from hs) fun _ h => .ite h h.takeHeld
  | waitingMessageTaken t =>
    exact h.occurs (show execWaitingMessageTaken t s = _ from hs) fun _ h => .ite h h.takeWaiting
  | keptReleaseBegin t => exact h.execKeptReleaseBegin hs
  | newFolioWriteComplete t => exact h.execNewFolioWriteComplete hs
  | folioUpdateWriteComplete t => exact h.execFolioUpdateWriteComplete hs
  | limitWriteComplete t => exact h.execLimitWriteComplete hs
  | suspendWriteComplete t => exact h.execSuspendWriteComplete hs
  | resumeWriteComplete t => exact h.execResumeWriteComplete hs
  | lockdownWriteComplete t => exact h.execLockdownWriteComplete hs
  | checkoutClearingComplete t => exact h.execCheckoutClearingComplete hs
  | provisionWriteComplete t => exact h.execProvisionWriteComplete hs
  | resetSerialWriteComplete t serial boot =>
    exact h.occurs (show execResetSerialWriteComplete t serial boot s = _ from hs) fun _ h => .ite (fullReset h) h
  | ceilingWriteComplete t => exact h.execCeilingWriteComplete hs
  | barWriteComplete t => exact h.execBarWriteComplete hs
  | pinResetWriteComplete t => exact h.execPinResetWriteComplete hs
  | setPinWriteComplete t => exact h.execSetPinWriteComplete hs
  | pinFailureWriteComplete t => exact h.execPinFailureWriteComplete hs
  | unlockWriteComplete t => exact h.execUnlockWriteComplete hs
  | lockoutClearWriteComplete t => exact h.execLockoutClearWriteComplete hs
  | buyWriteComplete t => exact h.execBuyWriteComplete hs
  | cancelWriteComplete t => exact h.execCancelWriteComplete hs
  | meterCloseComplete t service => exact h.execMeterCloseComplete hs
  | meterWriteComplete t => exact h.execMeterWriteComplete hs
  | viewingWriteComplete t => exact h.occurs (show execViewingWriteComplete t s = _ from hs) fun _ h => .ite h h
  | expiryWriteComplete t title => exact h.execExpiryWriteComplete hs
  | policyWriteComplete t => exact h.execPolicyWriteComplete hs
  | ratesWriteComplete t => exact h.execRatesWriteComplete hs
  | tierWriteComplete t => exact h.execTierWriteComplete hs
  | releaseWriteComplete t => exact h.execReleaseWriteComplete hs
  | presentationWriteComplete t => exact h.execPresentationWriteComplete hs
  | accessKeyInstallComplete t group => exact h.execAccessKeyInstallComplete hs
  | groupRevokeComplete t group => exact h.execGroupRevokeComplete hs
  | settingsWriteComplete t => exact h.execSettingsWriteComplete hs
  | tick t => exact h.occurs (show execTick t s = _ from hs) fun _ h => .ite h.tick h
  | purchaseExpiry t title => exact h.execPurchaseExpiry hs
  | blockAccrual t service => exact h.execBlockAccrual hs
  | previewAllowanceReached t title =>
    exact h.occurs (show execPreviewAllowanceReached t title s = _ from hs) fun _ h => .ite (rerunAll h) h
  | dayBoundary t => exact h.occurs (show execDayBoundary t s = _ from hs) fun _ h => .ite (emptyDaySpend h) h
  | frameBoundary t =>
    exact h.occurs (show execFrameBoundary t s = _ from hs) fun _ h => .ite (.ite h (showAll h)) h
  | noSignalDeadline t service => exact h.execNoSignalDeadline hs
  | stalenessDeadline t service => exact h.execStalenessDeadline hs
  | noKeyDeadline t engine => exact h.execNoKeyDeadline hs
  | warmUpEnd t engine => exact h.execWarmUpEnd hs
  | idleDeadline t engine => exact h.execIdleDeadline hs
  | noTitleDeadline t screen =>
    exact h.occurs (show execNoTitleDeadline t screen s = _ from hs) fun _ h => .ite (rerun h) h
  | routeHoldDeadline t => exact h.occurs (show execRouteHoldDeadline t s = _ from hs) fun _ h => .ite h.endHold h
  | presenceProbe t screen display =>
    exact h.occurs (show execPresenceProbe t screen display s = _ from hs) fun _ h => .ite h.probe h
  | unlockEndInstant t screen => exact h.execUnlockEndInstant hs
  | lockoutDeadline t => exact h.occurs (show execLockoutDeadline t s = _ from hs) fun _ h => .ite h.endLockout h
  | rejoinExpiry t service => exact h.execRejoinExpiry hs
  | maintenanceWindowEnd t =>
    exact h.occurs (show execMaintenanceWindowEnd t s = _ from hs) fun _ h => .ite h h
  | frameBegins t => exact h.occurs (show execFrameBegins t s = _ from hs) fun _ h => .ite (h.arriveChar _) h
  | badLength t length =>
    exact h.occurs (show execBadLength t length s = _ from hs) fun _ h => .ite (h.arriveChar _) h
  | powerLoss => cases hs; exact .ite h h.powerDown

/-- Every step keeps the law: the command at the front of the queue does, and an idle step changes nothing. -/
theorem step (hs : Machine.step s = .next s') (h : s.MeterLaw) : s'.MeterLaw := by
  unfold Machine.step at hs
  split at hs
  case h_1 c rest _ =>
    have taken : State.MeterLaw { s with pending := rest } := h
    exact taken.exec c hs
  case h_2 =>
    cases hs
    exact h

end Sys2Proof.Machine.State.MeterLaw

namespace Sys2Proof.Machine

/-- Settles O56: the law is kept by every step, as `State.MeterLaw.step` has it. -/
theorem everyStepKeepsTheMeterTablesLawful : Obligations.EveryStepKeepsTheMeterTablesLawful :=
  fun _ _ h hs => h.step hs

end Sys2Proof.Machine
end

section
/-! PROOF. The accrual a tick left is judged: a due block accrues under the limit, or its session closes
(R133, R138, R139; O37). -/

namespace Sys2Proof.Machine

variable {s : State} {n : Nat} {x : Session}

/-! ## One session of the table -/

theorem session_service (h : s.session n = some x) : x.service = n := by
  simpa using List.find?_some h

theorem onSession_eq (n : Nat) (f : Session → Session) (r : Retained) :
    r.onSession n f = { r with meter := r.meter.map fun y => if y.service = n then f y else y } := by
  simp only [Retained.onSession, beq_iff_eq]

/-- A change of the sessions that keeps their services is seen in each. -/
theorem find?_map_service {f : Session → Session} (hf : ∀ y, (f y).service = y.service) (meter : List Session)
    (n : Nat) :
    (meter.map f).find? (fun y => y.service == n) = (meter.find? fun y => y.service == n).map f := by
  rw [List.find?_map]
  simp only [Function.comp_def, hf]

/-! ## What a close and an accrual leave as they were -/

theorem beginClose_router (n : Nat) (cause : CloseCause) (s : State) : (s.beginClose n cause).router = s.router := by
  unfold State.beginClose
  repeat' split
  all_goals rfl

theorem routedTo_congr {s s' : State} (h : s'.router = s.router) (n : Nat) : s'.routedTo n = s.routedTo n := by
  simp only [State.routedTo, State.output, h]

theorem addDaySpend_meter (n units : Nat) (s : State) : (s.addDaySpend n units).cur.meter = s.cur.meter := by
  unfold State.addDaySpend
  repeat' split
  all_goals rfl

theorem meterChanged_cur (s : State) : s.meterChanged.cur = s.cur := by
  unfold State.meterChanged
  split <;> rfl

/-! ## A due block (R133, R138, R139) -/

theorem blockDue_iff (terms : MeterTerms) (x : Session) :
    x.blockDue terms = true ↔ x.blocks * 60 * terms.minutes < x.chargeable := decide_eq_true_iff

/-- The tax is that of the grown session net. -/
theorem blockFits_iff (x : Session) (net : Nat) (s : State) :
    s.blockFits x net = true ↔ s.cur.room.spend + s.room.pendingCharge +
      ((s.cur.meter.map fun y => if y.service = x.service then { y with net := y.net + net } else y).map fun y =>
        y.net + (y.net * y.rate + 5000) / 10000).sum ≤ s.cur.room.limit := by
  simp only [State.blockFits, decide_eq_true_eq, beq_iff_eq]
  rfl

/-- A session with a block more. -/
def Session.accrued (net : Nat) (y : Session) : Session :=
  { y with blocks := countUp y.blocks, net := y.net + net }

theorem accrue_eq (x : Session) (net : Nat) (s : State) :
    s.accrue x net =
      ((s.onCur fun r =>
        { r with meter := r.meter.map fun y => if y.service = x.service then y.accrued net else y }).addDaySpend
          x.service net).meterChanged := by
  unfold State.accrue
  simp only [funext (onSession_eq x.service _)]
  rfl

theorem session_accrue (net : Nat) (h : s.session n = some x) :
    (s.accrue x net).session n = some (x.accrued net) := by
  have hservice (y : Session) : (if y.service = x.service then y.accrued net else y).service = y.service := by
    split <;> rfl
  rw [accrue_eq, State.session, meterChanged_cur, addDaySpend_meter, State.onCur_cur, find?_map_service hservice,
    show s.cur.meter.find? (fun y => y.service == n) = some x from h, Option.map_some, if_pos rfl]

/-- A block that fits under the limit accrues, and leaves the accrual to be taken while a further block is due; one that
does not fit closes its session. -/
theorem judgeBlock_eq (terms : MeterTerms) (h : s.session n = some x) :
    s.judgeBlock x terms =
      let net := blockNet terms (s.daySpendOf n)
      if s.blockFits x net = true then
        if (x.accrued net).blockDue terms = true then s.accrue x net else (s.accrue x net).endAccrual n
      else (s.beginClose n .limit).rerun (s.routedTo n) := by
  obtain rfl := session_service h
  simp only [State.judgeBlock, session_accrue _ h, routedTo_congr (beginClose_router _ _ s)]

/-- The session is judged where it is open and a block is due; the accrual is taken from the list in any case. -/
theorem exec_blockAccrual {t : Nat} {a : Accrual} (hp : s.power ≠ .off)
    (ha : s.billing.accruals.find? (fun a => a.service == n) = some a) (hx : s.session n = some x) :
    exec (.blockAccrual t n) s = .next (
      if x.closing = none ∧ x.blockDue a.terms = true then (s.atInstant t).judgeBlock x a.terms
      else (s.atInstant t).endAccrual n) := by
  rw [show exec (.blockAccrual t n) s = execBlockAccrual t n s from rfl, execBlockAccrual, occurs_powered hp,
    show (s.atInstant t).billing.accruals.find? (fun a => a.service == n) = some a from ha,
    show (s.atInstant t).session n = some x from hx]
  simp only [Bool.and_eq_true, Option.isNone_iff_eq_none]

/-- Settles O37: a session that is closing or has no block due, a block that fits, and one that does not. -/
theorem blockAccrualIsTestedAgainstTheLimit : Obligations.BlockAccrualIsTestedAgainstTheLimit := by
  intro t n s a x hp ha hx
  refine ⟨_, exec_blockAccrual hp ha hx, ?_⟩
  intro due taken net grown open' blocks counted accrued
  refine ⟨fun h => ?_, fun hopen hdue => ?_⟩
  · rw [if_neg]
    · rfl
    · rw [blockDue_iff]
      rintro ⟨hopen, hdue⟩
      exact h.elim (· hopen) (· hdue)
  · have hjudged : x.closing = none ∧ x.blockDue a.terms = true := ⟨hopen, (blockDue_iff ..).2 hdue⟩
    simp only [if_pos hjudged, judgeBlock_eq (s := s.atInstant t) a.terms hx]
    have hservice := session_service hx
    have hfits : (s.atInstant t).blockFits x net = true ↔
        s.cur.room.spend + s.room.pendingCharge + open' ≤ s.cur.room.limit := by
      rw [blockFits_iff, hservice]
      rfl
    have hmore : (x.accrued net).blockDue a.terms = true ↔ due blocks := blockDue_iff ..
    have haccrued : (s.atInstant t).accrue x net = accrued := by
      have hcounted (y : Session) : (if y.service = n then y.accrued net else y) = counted y := by
        simp only [counted, grown]
        split <;> rfl
      rw [accrue_eq, hservice]
      simp only [hcounted]
      rfl
    have hnet : blockNet a.terms ((s.atInstant t).daySpendOf n) = net := rfl
    simp only [hnet, hfits, hmore, haccrued]
    split
    case isTrue => exact ⟨fun h => if_pos h, fun h => if_neg h⟩
    case isFalse => exact reran_rerun _ _

end Sys2Proof.Machine
end

section
/-! PROOF. Meter closes and meter writes: how a close begins, what its completion makes of the part, and what a
meter write makes durable (R137, R141, R142, R148, R149; O38). -/

namespace Sys2Proof.Machine

variable {s : State} {n : Nat} {x : Session}

/-! ## How a close begins (R8, R141, R142) -/

theorem beginClose_closing (cause : CloseCause) (h : s.session n = some x) (hc : x.closing ≠ none) :
    s.beginClose n cause = s := by
  unfold State.beginClose
  rw [h]
  exact if_pos (Option.isSome_iff_ne_none.2 hc)

/-- The session is marked with the cause, its accrual will not be taken, and the close falls due with its time stamp. -/
theorem beginClose_open (cause : CloseCause) (h : s.session n = some x) (hc : x.closing = none) :
    s.beginClose n cause =
      ({ s with
        cur := { s.cur with meter := s.cur.meter.map fun y => if y.service = n then y.close cause else y }
        billing := { s.billing with
          accruals := s.billing.accruals.filter fun a => a.service != n } } : State).fallDue
        (.close n (s.time.property.getD x.openedAt) (decide (0 < x.net))) := by
  unfold State.beginClose
  rw [h]
  dsimp only
  rw [if_neg (by simp [hc]), funext (onSession_eq n (.close cause))]
  rfl

/-- Start-up closes the oldest session that is not closing. -/
theorem closeFound_none (h : ∀ x ∈ s.cur.meter, x.closing ≠ none) : s.closeFound = s :=
  closeOldest_none fun x hx hopen => h x hx (by simpa using hopen)

theorem closeFound_some {before after : List Session} (hm : s.cur.meter = before ++ x :: after)
    (hbefore : ∀ y ∈ before, y.closing ≠ none) (hx : x.closing = none) :
    s.closeFound = s.beginClose x.service .startUp :=
  closeOldest_some hm (fun y hy hopen => hbefore y hy (by simpa using hopen)) (by simp [hx])

/-! ## The completion of a close (R141, R148, R149) -/

/-- What a close write makes of the retained items, in use and in the store: the session leaves with its reservation,
and a charged one is recorded and added to S. -/
def Retained.closed (x : Session) (stamp : PTime) (charged : Bool) (r : Retained) : Retained :=
  if charged then ((r.endSession x.service).spend x.contribution).append (meteredRecord x stamp)
  else r.endSession x.service

theorem endSession_eq (n : Nat) (r : Retained) :
    r.endSession n =
      if ∃ y ∈ r.meter, y.service = n then
        { r with meter := r.meter.filter fun y => y.service != n, reserved := r.reserved - 1 }
      else r := by
  simp only [Retained.endSession, List.any_eq_true, beq_iff_eq]

theorem State.endSession_eq (x : Session) (stamp : PTime) (charged : Bool) (s : State) :
    s.endSession x stamp charged =
      if charged then (s.durably (.closed x stamp charged)).raise .charge
      else (s.durably (.closed x stamp charged)).occupancyFell := by
  cases charged <;> rfl

/-- The part as the completion of a close leaves it, before the reports of R141: the next waiting write has begun
(log 72). -/
def State.closeDone (x : Session) (stamp : PTime) (charged : Bool) (rest : List TurnWrite) (s : State) : State :=
  ((s.onTurns fun _ => rest).endSession x stamp charged).turnsAdvance

theorem afterClose_eq (n : Nat) (s : State) :
    s.afterClose n =
      let told := (s.turnsAdvance.rerun (s.turnsAdvance.routedOrSlated n)).onBilling fun b =>
        { b with suspendCloses := b.suspendCloses.filter (· != n) }
      if s.power = .starting then told.closeFound else told.advanceSuspend.advanceCheckOut := by
  have hpower : (s.turnsAdvance.rerun (s.routedOrSlated n)).power = s.power := (onlyVerdicts_rerun _ _).power
  unfold State.afterClose
  simp only [State.onBilling_power, hpower]
  rfl

theorem endSession_power (x : Session) (stamp : PTime) (charged : Bool) (s : State) :
    (s.endSession x stamp charged).power = s.power := by
  rw [State.endSession_eq]
  unfold State.occupancyFell
  repeat' split
  all_goals rfl

theorem exec_meterCloseComplete {t : Nat} {stamp : PTime} {charged : Bool} {rest : List TurnWrite}
    (hp : s.power ≠ .off) (hx : s.session n = some x)
    (hw : takeBegun (TurnWrite.closes n) false false s.turns = some (.close n stamp charged, rest)) :
    exec (.meterCloseComplete t n) s = .next (
      let done := (s.atInstant t).closeDone x stamp charged rest
      let told := (done.rerun (done.routedOrSlated n)).onBilling fun b =>
        { b with suspendCloses := b.suspendCloses.filter (· != n) }
      if s.power = .starting then told.closeFound else told.advanceSuspend.advanceCheckOut) := by
  rw [show exec (.meterCloseComplete t n) s = execMeterCloseComplete t n s from rfl, execMeterCloseComplete,
    occurs_powered hp,
    show takeBegun (TurnWrite.closes n) false false (s.atInstant t).turns = some (.close n stamp charged, rest) from hw,
    show (s.atInstant t).session n = some x from hx]
  dsimp only
  rw [afterClose_eq, endSession_power]
  rfl

/-! ## The completion of a meter write (R137; log 54) -/

theorem exec_meterWriteComplete {t : Nat} {image : MeterImage} {rest : List TurnWrite} (hp : s.power ≠ .off)
    (hw : takeBegun TurnWrite.isMeter false false s.turns = some (.meter (some image), rest)) :
    exec (.meterWriteComplete t) s =
      .next (((s.atInstant t).onTurns fun _ => rest).onStore (.takeImage image)).nextMeterWrite := by
  rw [show exec (.meterWriteComplete t) s = execMeterWriteComplete t s from rfl, execMeterWriteComplete,
    occurs_powered hp,
    show takeBegun TurnWrite.isMeter false false (s.atInstant t).turns = some (.meter (some image), rest) from hw]

/-- Settles O38: how a close begins, the closes of a start-up, and the completions of a close and of a meter write. -/
theorem meterClosesAndWritesTakeEffectAtCompletion : Obligations.MeterClosesAndWritesTakeEffectAtCompletion := by
  refine ⟨fun n cause s x hx => ⟨beginClose_closing cause hx, beginClose_open cause hx⟩,
    fun s => ⟨closeFound_none, fun before x after => closeFound_some⟩, ?_, fun t s image rest hp hw => ?_⟩
  · intro t n s x stamp charged rest hp hx hw tax gone recorded s₀ s₁
    have hclosed (r : Retained) : r.closed x stamp charged = recorded (gone r) := by
      obtain rfl := session_service hx
      simp only [Retained.closed, endSession_eq]
      rfl
    have hdone : (s.atInstant t).closeDone x stamp charged rest = s₁ := by
      rw [State.closeDone, State.endSession_eq, funext hclosed]
      rfl
    refine ⟨_, reran_rerun _ _, ?_⟩
    rw [exec_meterCloseComplete hp hx hw, hdone]
    rfl
  · rw [exec_meterWriteComplete hp hw]
    rfl

end Sys2Proof.Machine
end

section
/-! PROOF. Rejoin expiries, day boundaries, and the day-spend table (R140, R143, R173; logs 35, 37, 38; O39). -/

namespace Sys2Proof.Machine

variable {s : State} {n units : Nat} {x : Session} {t : Nat}

/-! ## Rejoin expiries and day boundaries (R140, R173) -/

theorem exec_rejoinExpiry (hp : s.power ≠ .off) (hx : s.session n = some x) :
    exec (.rejoinExpiry t n) s = .next (
      if x.idle = true ∧ x.closing = none ∧ (∃ d, x.rejoin = some d ∧ d ≤ max s.time.now t) then
        ((s.atInstant t).beginClose n .expiry).rerun (s.routedTo n)
      else s.atInstant t) := by
  rw [show exec (.rejoinExpiry t n) s = execRejoinExpiry t n s from rfl, execRejoinExpiry, occurs_powered hp,
    show (s.atInstant t).session n = some x from hx]
  simp only [Bool.and_eq_true, Option.isNone_iff_eq_none, due_iff, and_assoc,
    routedTo_congr (beginClose_router _ _ (s.atInstant t))]
  rfl

theorem exec_dayBoundary (hp : s.power ≠ .off) :
    exec (.dayBoundary t) s = .next (
      if s.time.boundaryDue = false then s.atInstant t
      else ((s.atInstant t).onTime fun c => { c with boundaryDue := false }).emptyDaySpend) := by
  rw [show exec (.dayBoundary t) s = execDayBoundary t s from rfl, execDayBoundary, occurs_powered hp,
    show (s.atInstant t).time.boundaryDue = s.time.boundaryDue from rfl]
  cases s.time.boundaryDue <;> rfl

/-! ## The day-spend table (R143; log 37) -/

/-- The state with another day-spend table. -/
def State.spentAs (l : List DaySpend) (s : State) : State := { s with cur := { s.cur with daySpend := l } }

theorem addDaySpend_zero (n : Nat) (s : State) : s.addDaySpend n 0 = s := if_pos rfl

theorem addDaySpend_held (hu : 0 < units) (h : ∃ d ∈ s.cur.daySpend, d.service = n) :
    s.addDaySpend n units =
      s.spentAs (s.cur.daySpend.map fun d => if d.service = n then { d with units := d.units + units } else d) := by
  have hany : (s.cur.daySpend.any fun d => d.service == n) = true := by simpa using h
  rw [State.addDaySpend, if_neg hu.ne', if_pos hany]
  simp only [beq_iff_eq]
  rfl

theorem addDaySpend_new (hu : 0 < units) (h : ∀ d ∈ s.cur.daySpend, d.service ≠ n) :
    s.addDaySpend n units =
      if s.cur.daySpend.length < 8 then s.spentAs (s.cur.daySpend ++ [⟨n, units⟩])
      else s.spentAs (s.cur.daySpend.filter (fun d => s.dayEviction != some d.service) ++ [⟨n, units⟩]) := by
  have hany : ¬ (s.cur.daySpend.any fun d => d.service == n) = true := by simpa using h
  rw [State.addDaySpend, if_neg hu.ne', if_neg hany]
  rfl

/-- The entry's service is metered no more. -/
def State.staleSpend (s : State) (d : DaySpend) : Prop := s.meterTerms d.service = none

/-- The entry's service is metered no more, and has no open session. -/
def State.idleSpend (s : State) (d : DaySpend) : Prop := s.staleSpend d ∧ s.session d.service = none

/-- The first of a list that satisfies a test. -/
theorem find?_first {p : α → Bool} {l before after : List α} {d : α} (hl : l = before ++ d :: after)
    (hd : p d = true) (hbefore : ∀ y ∈ before, ¬ p y = true) : l.find? p = some d := by
  rw [hl, List.find?_append, List.find?_eq_none.2 hbefore, Option.none_or, List.find?_cons_of_pos hd]

/-- The entry a full table loses: the oldest that is metered no more and has no session, else the oldest metered no
more, else the oldest. -/
theorem dayEviction_eq {before after : List DaySpend} {d : DaySpend} (hl : s.cur.daySpend = before ++ d :: after)
    (h : s.idleSpend d ∧ (∀ y ∈ before, ¬ s.idleSpend y) ∨
      (∀ y ∈ s.cur.daySpend, ¬ s.idleSpend y) ∧ s.staleSpend d ∧ (∀ y ∈ before, ¬ s.staleSpend y) ∨
      (∀ y ∈ s.cur.daySpend, ¬ s.staleSpend y) ∧ before = []) :
    s.dayEviction = some d.service := by
  have hidle (y : DaySpend) : ((s.meterTerms y.service).isNone && (s.session y.service).isNone) = true ↔
      s.idleSpend y := by
    simp [State.idleSpend, State.staleSpend]
  have hstale (y : DaySpend) : (s.meterTerms y.service).isNone = true ↔ s.staleSpend y := Option.isNone_iff_eq_none
  unfold State.dayEviction
  dsimp only
  rcases h with ⟨hd, hbefore⟩ | ⟨hnone, hd, hbefore⟩ | ⟨hnone, rfl⟩
  · rw [find?_first hl ((hidle d).2 hd) fun y hy => (hidle y).not.2 (hbefore y hy)]
  · rw [List.find?_eq_none.2 fun y hy => (hidle y).not.2 (hnone y hy),
      find?_first hl ((hstale d).2 hd) fun y hy => (hstale y).not.2 (hbefore y hy)]
    rfl
  · rw [List.find?_eq_none.2 fun y hy => (hidle y).not.2 fun hi => hnone y hy hi.1,
      List.find?_eq_none.2 fun y hy => (hstale y).not.2 (hnone y hy), hl]
    rfl

theorem filter_dayEviction {d : DaySpend} (h : s.dayEviction = some d.service) (l : List DaySpend) :
    l.filter (fun y => s.dayEviction != some y.service) = l.filter fun y => y.service != d.service := by
  refine List.filter_congr fun y _ => ?_
  rw [h, Bool.eq_iff_iff, bne_iff_ne, bne_iff_ne, ne_eq, Option.some.injEq]
  exact not_congr eq_comm

/-- Settles O39: the rejoin expiry, the day boundary, and the three ways of a charge of the day. -/
theorem rejoinExpiriesAndDaySpendAreKept : Obligations.RejoinExpiriesAndDaySpendAreKept := by
  refine ⟨fun t n s x hp hx => ⟨_, exec_rejoinExpiry hp hx, ?_⟩, fun t s hp => exec_dayBoundary hp,
    fun n units s => ⟨?_, addDaySpend_held, fun hu hnew => ⟨fun hroom => ?_, fun hfull before d after hl hd => ?_⟩⟩⟩
  · split
    · exact reran_rerun _ _
    · rfl
  · rintro rfl
    exact addDaySpend_zero n s
  · rw [addDaySpend_new hu hnew, if_pos hroom]
    rfl
  · rw [addDaySpend_new hu hnew, if_neg hfull.not_gt, filter_dayEviction (dayEviction_eq hl hd)]
    rfl

end Sys2Proof.Machine
end

section
/-! PROOF. The charge of a purchase, its bounds and what it is used for (R132; O35). -/

namespace Sys2Proof.Machine

/-! ## The figures of a charge (R131, R132) -/

theorem taxOf_zero (rate : Nat) : taxOf 0 rate = 0 := by
  simp [taxOf]

/-- Tax at the highest rate of R46 is at most a quarter, a half unit rounded up. -/
theorem taxOf_le {amount rate bound : Nat} (hamount : amount ≤ bound) (hrate : rate ≤ 2500) :
    taxOf amount rate ≤ taxOf bound 2500 :=
  Nat.div_le_div_right (Nat.add_le_add_right (Nat.mul_le_mul hamount hrate) _)

/-- A discount never raises a price: the half that is rounded up fits under the next unit. -/
theorem purchaseNet_le (price count : Nat) (r : Rates) : purchaseNet price count r ≤ price := by
  unfold purchaseNet
  split
  · exact le_rfl
  · have hpart : price * (100 - r.discount) ≤ price * 100 := Nat.mul_le_mul_left _ (Nat.sub_le ..)
    omega

theorem purchaseNet_undiscounted {r : Rates} (h : r.discount = 0) (price count : Nat) :
    purchaseNet price count r = price := by
  unfold purchaseNet
  rw [h]
  split <;> omega

theorem purchaseTotal_of_net {price count : Nat} {r : Rates} (h : purchaseNet price count r = 0) :
    purchaseTotal price count r = 0 := by
  rw [purchaseTotal, purchaseTax, h, taxOf_zero]

theorem purchaseTotal_free (count : Nat) (r : Rates) : purchaseTotal 0 count r = 0 :=
  purchaseTotal_of_net (Nat.le_zero.1 (purchaseNet_le 0 count r))

theorem purchaseTotal_le {price count : Nat} {r : Rates} (hprice : price ≤ 99999) (hrate : r.tax ≤ 2500) :
    purchaseTotal price count r ≤ 124999 := by
  have hnet : purchaseNet price count r ≤ 99999 := (purchaseNet_le ..).trans hprice
  calc purchaseNet price count r + taxOf (purchaseNet price count r) r.tax
      ≤ 99999 + taxOf 99999 2500 := Nat.add_le_add hnet (taxOf_le hnet hrate)
    _ = 124999 := rfl

/-! ## A sale -/

theorem mem_turns_fallDue (w : TurnWrite) (hw : w ≠ .meter none) (s : State) : w ∈ (s.fallDue w).turns := by
  refine List.mem_of_getElem? (i := s.turns.length) ?_
  exact (beginMeterWrite_getElem s.meterImage s.turns w []).trans (by rw [if_neg fun h => hw h.1])

/-- A sale that comes to nothing changes the purchase table alone. -/
theorem sell_free {p : Purchase} (h : p.total = 0) (s : State) :
    s.sell p = s.durably (.addPurchase (s.numbered p)) :=
  if_neg (by omega)

/-- Settles O35: the figures of a sale, the free sale, and what QUOTE and BUY make of them. -/
theorem purchaseChargeFollowsPriceCountAndRates : Obligations.PurchaseChargeFollowsPriceCountAndRates := by
  refine ⟨fun s x time => ⟨rfl, rfl, rfl, rfl, rfl, rfl, purchaseTotal_le, purchaseTotal_of_net, fun hfree => ?_,
    fun hd => purchaseNet_undiscounted hd _ _⟩, fun s p hp => ?_, fun t s r x time hk => ⟨fun hb => ?_, fun hb => ?_⟩⟩
  · change purchaseTotal x.price s.cur.room.count s.cur.rates = 0
    rw [hfree, purchaseTotal_free]
  · rw [sell_free hp]
    exact ⟨rfl, rfl, rfl, rfl⟩
  · have hquote := exec_sale (c := (Instr.quote, 0x11)) (t := t) (by simp [saleRequests]) hb
    rw [hk] at hquote
    exact ⟨ident x.title, _, hquote.trans (by simp only [List.append_assoc]; rfl)⟩
  · have hbuy := exec_sale (c := (Instr.buy, 0x12)) (t := t) (by simp [saleRequests]) hb
    rw [hk] at hbuy
    obtain ⟨hrefused, hpassed⟩ := ite_prop_iff_and.1 (hbuy : if s.saleOutcome x ≠ .ok then _ else _)
    refine ⟨fun hover => ?_, fun _ hok => ⟨_, hpassed (not_not.2 hok), rfl, mem_turns_fallDue _ (by simp) _⟩⟩
    have hlimit : s.saleOutcome x = .limit := by rw [saleOutcome_eq]; exact if_pos hover
    rw [hlimit] at hrefused
    exact hrefused (by simp)

end Sys2Proof.Machine
end

section
/-! PROOF. Power-on, the loss of power, and the part without power (R142, R175 to R178; O52). -/

namespace Sys2Proof.Machine

/-- What a start-up has made of the part as stage 4 begins: the items the check took, everything volatile afresh,
and PROPERTY raised where the store was lost (R176, R178). -/
def State.started (boot : Boot) (fastBaud maintenance : Bool) (s : State) : State :=
  let s₁ := startedWith (s.store.checked boot.storeIntact) boot fastBaud maintenance s
  if boot.storeIntact then s₁ else s₁.raise .property

theorem startUp_started (boot : Boot) (fastBaud maintenance : Bool) (s : State) :
    s.startUp boot fastBaud maintenance = (s.started boot fastBaud maintenance).closeFound := rfl

theorem started_intact {boot : Boot} (h : boot.storeIntact = true) (fastBaud maintenance : Bool) (s : State) :
    s.started boot fastBaud maintenance = startedWith s.store.restored boot fastBaud maintenance s := by
  simp only [State.started, Retained.checked, h, if_true]

theorem started_lost {boot : Boot} (h : boot.storeIntact = false) (fastBaud maintenance : Bool) (s : State) :
    s.started boot fastBaud maintenance =
      (startedWith .lost boot fastBaud maintenance s).raise .property := by
  simp only [State.started, Retained.checked, h, Bool.false_eq_true, if_false]

/-- Power-on is a start-up and the window its maintenance strap opens. -/
theorem powerUp_started (fastBaud maintenance : Bool) (boot : Boot) (s : State) :
    s.powerUp fastBaud maintenance boot =
      { (s.started boot fastBaud maintenance).closeFound with
        room := ⟨if maintenance then some 1800000 else none, 0, none, [], none⟩ } := by
  have hroom : (s.started boot fastBaud maintenance).closeFound.room = .initial := startUp_room ..
  rw [State.powerUp, startUp_started, State.onRoom, hroom]
  rfl

theorem exec_powerLoss {s : State} (hp : s.power ≠ .off) : exec .powerLoss s = .next s.powerDown :=
  congrArg Host.Outcome.next (if_neg hp)

/-- Without power nothing but power-on has an effect. -/
theorem exec_unpowered {c : Instr} {s : State} (hp : s.power = .off)
    (hc : ∀ fastBaud maintenance boot, c ≠ .powerOn fastBaud maintenance boot) : exec c s = .next s := by
  cases c
  case powerOn fastBaud maintenance boot => exact absurd rfl (hc fastBaud maintenance boot)
  all_goals exact congrArg Host.Outcome.next (if_pos hp)

/-- Settles O52: power-on from an intact and from a lost store, the loss of power, and the part without it. -/
theorem powerOnRestoresTheStore : Obligations.PowerOnRestoresTheStore := by
  refine ⟨fun fastBaud maintenance boot s => ⟨s.started boot fastBaud maintenance,
    congrArg Host.Outcome.next (powerUp_started fastBaud maintenance boot s), ?_⟩,
    fun s hp => ⟨_, exec_powerLoss hp, rfl, rfl, rfl⟩, fun c s hp hc => exec_unpowered hp hc⟩
  cases h : boot.storeIntact
  · rw [started_lost h]
    exact ⟨rfl, rfl, rfl, rfl, rfl, rfl, rfl, rfl, rfl, rfl, rfl, rfl, rfl, rfl, rfl, rfl, rfl⟩
  · rw [started_intact h]
    exact ⟨rfl, rfl, rfl, rfl, rfl, rfl, rfl, rfl, rfl, rfl, rfl, rfl, rfl, rfl, rfl, rfl, rfl⟩

end Sys2Proof.Machine
end

section
/-! PROOF. Presentation: the record at the cursor, JOURNAL_READ, JOURNAL_REWIND, JOURNAL_MODE and the pushed frame
(R150 to R154; O40). -/

namespace Sys2Proof.Machine

variable {s : State} {r : ChargeRecord} {q : Request} {t : Nat}

/-! ## What a presentation does (R151, R154) -/

/-- A changed count: its write is owed while a presentation write has its turn, and falls due otherwise (R154). -/
theorem presentedChanged_eq (s : State) :
    s.presentedChanged =
      if ∃ w ∈ s.turns, w.isPresentation = true then
        { s with journal := { s.journal with presentationOwed := true } }
      else s.fallDue (.presentation (counts s.cur.records)) := by
  simp only [State.presentedChanged, List.any_eq_true]
  rfl

theorem presentIn_eq (n : Nat) (l : List ChargeRecord) :
    presentIn n l = l.map fun x => if x.number = n then x.afterPresentation else x := by
  simp only [presentIn, beq_iff_eq, ChargeRecord.afterPresentation]

/-- A presentation: the count of the record, the cursor past it, and what becomes of the changed count. -/
theorem present_eq (r : ChargeRecord) (s : State) :
    s.present r =
      ({ s with
        cur := { s.cur with
          records := s.cur.records.map fun x => if x.number = r.number then x.afterPresentation else x }
        journal := { s.journal with cursor := r.number + 1 } } : State).presentedChanged := by
  rw [← presentIn_eq]
  rfl

theorem presentedChanged_frame (s : State) :
    s.presentedChanged.cur = s.cur ∧ s.presentedChanged.journal.cursor = s.journal.cursor ∧
      s.presentedChanged.port = s.port := by
  unfold State.presentedChanged
  split <;> exact ⟨rfl, rfl, rfl⟩

theorem present_port (r : ChargeRecord) (s : State) : (s.present r).port = s.port :=
  (presentedChanged_frame _).2.2

/-- What remains after a presentation is what was held past the record: no number changed. -/
theorem remainingRecords_present (r : ChargeRecord) (s : State) :
    (s.present r).remainingRecords = (s.cur.records.filter fun x => decide (r.number < x.number)).length := by
  obtain ⟨hcur, hcursor, -⟩ := presentedChanged_frame
    ((s.onCur fun x => { x with records := presentIn r.number x.records }).onJournal
      fun j => { j with cursor := r.number + 1 })
  have hnumbers (l : List ChargeRecord) :
      (l.filter fun x => decide (r.number < x.number)).length =
        (l.map (·.number)).countP fun n => decide (r.number < n) := by
    rw [← List.countP_eq_length_filter, List.countP_map]
    rfl
  calc (s.present r).remainingRecords
      = ((presentIn r.number s.cur.records).filter fun x => decide (r.number < x.number)).length := by
        unfold State.remainingRecords State.present
        dsimp only
        rw [hcur, hcursor]
        rfl
    _ = _ := by rw [hnumbers, hnumbers, numbers_presentIn]

/-! ## The requests (R151 to R153) -/

theorem exec_journalRead (hb : Begins 0x08 .everyMode s q) :
    exec (.journalRead t) s = .next (match s.recordAtCursor with
      | none => (s.atInstant t).reply .empty []
      | some r => ((s.atInstant t).present r).reply .ok (recordField r.afterPresentation ++
          [byte (s.cur.records.filter fun x => decide (r.number < x.number)).length])) := by
  rw [show exec (.journalRead t) s = execJournalRead t s from rfl, execJournalRead, occurs_powered hb.powered,
    request_begins t hb, show (s.atInstant t).recordAtCursor = s.recordAtCursor from rfl]
  cases s.recordAtCursor with
  | none => rfl
  | some r =>
    dsimp only
    rw [remainingRecords_present]
    rfl

theorem exec_journalRewind (hb : Begins 0x09 .everyMode s q) :
    exec (.journalRewind t) s = .next
      (({ s.atInstant t with journal := { s.journal with cursor := 1 } } : State).reply .ok []) := by
  rw [show exec (.journalRewind t) s = execJournalRewind t s from rfl, execJournalRewind, occurs_powered hb.powered,
    request_begins t hb]
  rfl

theorem exec_journalMode (hb : Begins 0x0A .everyMode s q) :
    exec (.journalMode t) s = .next (
      if 1 < field 0 1 q.body then (s.atInstant t).reply .badArgument []
      else ({ s.atInstant t with
        journal := { s.journal with push := field 0 1 q.body == 1 } } : State).reply .ok []) := by
  rw [show exec (.journalMode t) s = execJournalMode t s from rfl, execJournalMode, occurs_powered hb.powered,
    request_begins t hb]
  dsimp only
  cases hmode : boolOfNat (field 0 1 q.body) with
  | none => rw [if_pos ((boolOfNat_none_iff _).1 hmode)]
  | some push =>
    have hpush : (field 0 1 q.body == 1) = push := by
      rw [Bool.eq_iff_iff, beq_iff_eq, boolOfNat_some hmode]
    rw [if_neg (by simp [← boolOfNat_none_iff, hmode]), hpush]
    rfl

/-! ## The pushed frame (R153) -/

theorem freeToPush_iff (p : Port) :
    p.freeToPush = true ↔
      p.opened = true ∧ p.lineBreak = false ∧ p.outbound = [] ∧ p.transmitter = .idle := by
  simp [Port.freeToPush, and_assoc]

theorem exec_chargePresented_unpushed (hp : s.power ≠ .off)
    (h : s.journal.push = false ∨ s.recordAtCursor = none ∨ ¬ s.port.freeToPush = true) :
    exec (.chargePresented t) s = .next (s.atInstant t) := by
  rw [show exec (.chargePresented t) s = execChargePresented t s from rfl, execChargePresented, occurs_powered hp,
    show (s.atInstant t).recordAtCursor = s.recordAtCursor from rfl]
  cases hr : s.recordAtCursor with
  | none => rfl
  | some r =>
    have hkept : (s.journal.push && s.port.freeToPush) = false := by
      rcases h with h | h | h
      · simp [h]
      · rw [hr] at h
        cases h
      · simp [h]
    exact congrArg Host.Outcome.next (if_neg (Bool.eq_false_iff.1 hkept))

theorem exec_chargePresented_pushed (hp : s.power ≠ .off) (hpush : s.journal.push = true)
    (hfree : s.port.freeToPush = true) (hr : s.recordAtCursor = some r) :
    exec (.chargePresented t) s = .next
      { (s.atInstant t).present r with port := { s.port with transmitter := .push (pushedFrame r) } } := by
  rw [show exec (.chargePresented t) s = execChargePresented t s from rfl, execChargePresented, occurs_powered hp,
    show (s.atInstant t).recordAtCursor = some r from hr]
  dsimp only
  rw [if_pos (show ((s.atInstant t).journal.push && (s.atInstant t).port.freeToPush) = true from
    Bool.and_eq_true_iff.2 ⟨hpush, hfree⟩), State.onPort, present_port]
  rfl

/-- Settles O40: a presentation as its two outcomes, then the three requests and the pushed frame. -/
theorem recordAtTheCursorIsPresented : Obligations.RecordAtTheCursorIsPresented := by
  unfold Obligations.RecordAtTheCursorIsPresented
  intro atCursor after presented
  have hpresented (r : ChargeRecord) (s : State) : s.present r = presented r s :=
    (present_eq r s).trans (presentedChanged_eq _)
  refine ⟨fun t s q hb => ?_, fun t s q hb => exec_journalRewind hb, fun t s q hb => exec_journalMode hb,
    fun t s hp => ?_⟩
  · simp only [← hpresented]
    exact exec_journalRead hb
  · intro free
    refine ⟨fun h => exec_chargePresented_unpushed hp (h.imp_right (.imp_right (mt (freeToPush_iff _).1))),
      fun r hpush hfree hr => ?_⟩
    rw [← hpresented]
    exact exec_chargePresented_pushed hp hpush ((freeToPush_iff _).2 hfree) hr

end Sys2Proof.Machine
end

section
/-! PROOF. The Set Port's sender: what joins the outbound queue, and what the transmitter begins next (R153, R161 to
R163, R178; O44). -/

namespace Sys2Proof.Machine

/-! ## The outbound queue (R161, R163) -/

/-- A port whose outbound queue is `queue`, its transmitter, where free, having begun the oldest reply (R160, R163). -/
def Port.sending (p : Port) (queue : List OutFrame) : Port :=
  { p with
    outbound := queue
    transmitter :=
      if p.transmitter = .idle ∧ p.lineBreak = false ∧ queue ≠ [] then .reply else p.transmitter }

theorem startSending_sending (s : State) : s.startSending = { s with port := s.port.sending s.port.outbound } :=
  startSending_eq s

theorem queueFrame_eq (f : OutFrame) (s : State) :
    s.queueFrame f = { s with port := s.port.sending (s.port.outbound ++ [f]) } :=
  startSending_eq _

theorem reply_eq {s : State} {r : Request} {rest : List Request} (h : s.port.intake = r :: rest) (st : Status)
    (fields : List Byte) :
    s.reply st fields = { s with
      port :=
        ({ s.port with intake := rest, executing := false, guestWaits := false } : Port).sending
          (s.port.outbound ++
            [⟨frameBytes (replyKind r.kind) r.tag (byte st.code :: byte rest.length :: fields), false,
              false⟩]) } := by
  unfold State.reply State.replyWith
  rw [h]
  exact queueFrame_eq _ _

theorem queueError_eq (bytes : List Byte) (s : State) :
    s.queueError bytes =
      if (s.port.outbound.filter fun f => f.error).length < 4 then
        { s with port := s.port.sending (s.port.outbound ++ [⟨bytes, true, false⟩]) }
      else s := by
  rw [State.queueError, queueFrame_eq]

/-! ## The transmitter (R163, R178) -/

section

variable {t : Nat} {boot : Boot} {s : State}

theorem exec_frameTransmitted (hp : s.power ≠ .off) :
    exec (.frameTransmitted t boot) s = .next (match s.port.transmitter with
      | .idle => s.atInstant t
      | .reply => (s.atInstant t).replySent boot
      | .push _ => { s.atInstant t with
          port := ({ s.port with transmitter := .idle } : Port).sending s.port.outbound }) := by
  rw [show exec (.frameTransmitted t boot) s = execFrameTransmitted t boot s from rfl, execFrameTransmitted,
    occurs_powered hp, show (s.atInstant t).port = s.port from rfl]
  cases s.port.transmitter with
  | idle => rfl
  | reply => rfl
  | push bytes => exact congrArg Host.Outcome.next (startSending_eq _)

theorem replySent_frees {f : OutFrame} {fs : List OutFrame} (h : s.port.outbound = f :: fs)
    (hf : f.resets = false) :
    s.replySent boot = { s with port := ({ s.port with transmitter := .idle } : Port).sending fs } := by
  unfold State.replySent
  simp only [h, hf, startSending_eq]
  rfl

theorem replySent_resets {f : OutFrame} {fs : List OutFrame} (h : s.port.outbound = f :: fs) (hf : f.resets = true) :
    s.replySent boot =
      ({ s with port := { s.port with outbound := fs, transmitter := .idle } } : State).fullReset boot := by
  unfold State.replySent
  simp only [h, hf, if_true]
  rfl

end

/-- A pushed frame begins only where the transmitter is free for one; CHARGE_PRESENTED leaves the port alone
elsewhere. -/
theorem exec_chargePresented_port (t : Nat) (s : State) :
    ∃ s₁, exec (.chargePresented t) s = .next s₁ ∧
      (s₁.port = s.port ∨
        s.port.freeToPush = true ∧ ∃ bytes, s₁.port = { s.port with transmitter := .push bytes }) := by
  by_cases hp : s.power = .off
  · exact ⟨s, exec_unpowered hp (by simp), .inl rfl⟩
  by_cases hpushed : s.journal.push = true ∧ s.port.freeToPush = true ∧ s.recordAtCursor ≠ none
  · obtain ⟨hpush, hfree, hr⟩ := hpushed
    obtain ⟨r, hr⟩ := Option.ne_none_iff_exists'.1 hr
    exact ⟨_, exec_chargePresented_pushed hp hpush hfree hr, .inr ⟨hfree, _, rfl⟩⟩
  · refine ⟨_, exec_chargePresented_unpushed hp ?_, .inl rfl⟩
    grind

/-- Settles O44: replies and error replies join the queue, and the transmitter's turns follow by what it sends. -/
theorem repliesAreQueuedAndSentInOrder : Obligations.RepliesAreQueuedAndSentInOrder := by
  refine ⟨fun s st fields r rest h => reply_eq h st fields, fun s bytes => queueError_eq bytes s,
    fun t boot s hp => ?_, fun t s => ?_⟩
  · intro freed
    refine ⟨fun h => ?_, fun bytes h => ?_, fun f fs h hq => ⟨fun hf => ?_, fun hf => ?_⟩⟩
    all_goals rw [exec_frameTransmitted hp, h]
    · rfl
    · exact congrArg Host.Outcome.next (replySent_frees hq hf)
    · exact congrArg Host.Outcome.next (replySent_resets hq hf)
  · obtain ⟨s₁, hs, hport⟩ := exec_chargePresented_port t s
    refine ⟨s₁, hs, hport.imp_right fun ⟨hfree, hpushed⟩ => ?_⟩
    obtain ⟨hopened, hbreak, hqueue, hidle⟩ := (freeToPush_iff _).1 hfree
    exact ⟨hopened, hbreak, hqueue, hidle, hpushed⟩

end Sys2Proof.Machine
end

section
/-! PROOF. The Set Port's receiver: what each character makes of it, a whole frame, and what cuts one short (R158 to
R161, R178, R180, R183; O42, O43). -/

namespace Sys2Proof.Machine

/-! ## One character (R158, R159) -/

/-- The receiver in state `r`, a character having just arrived. -/
def State.hearing (r : Receiver) (s : State) : State :=
  { s with port := { s.port with receiver := r, lastCharAt := s.time.now } }

theorem hearing_same {r : Receiver} {s : State} (h : s.port.receiver = r) :
    s.hearing r = { s with port := { s.port with lastCharAt := s.time.now } } := by
  subst h
  rfl

theorem gap_hunt {s : State} (h : s.port.receiver = .hunt) : s.gap = false := by
  simp [State.gap, h, Receiver.midFrame]

theorem midFrame_eq_true {r : Receiver} : r.midFrame = true ↔ r ≠ .hunt := by
  cases r <;> simp [Receiver.midFrame]

theorem gap_iff {s : State} (h : s.port.receiver ≠ .hunt) : s.gap = true ↔ s.port.lastCharAt + 20 < s.time.now := by
  rw [State.gap, midFrame_eq_true.2 h, Bool.true_and, decide_eq_true_iff]
  rfl

theorem dropFrame_eq (s : State) :
    s.dropFrame = ({ s with port := { s.port with receiver := .hunt } } : State).raise .link := rfl

section

variable {s : State}

/-- An open line with no gap before the character. -/
theorem arriveChar_heard (hopened : s.port.opened = true) (hbreak : s.port.lineBreak = false) (hgap : s.gap = false)
    (c : Byte) : s.arriveChar c = (s.hearing s.port.receiver).takeChar c :=
  arriveChar_open c s hopened hbreak hgap

/-- No gap comes before a character of the same instant. -/
theorem arriveChar_hearing (hopened : s.port.opened = true) (hbreak : s.port.lineBreak = false) (r : Receiver)
    (c : Byte) : (s.hearing r).arriveChar c = (s.hearing r).takeChar c := by
  have hgap : (s.hearing r).gap = false :=
    Bool.and_eq_false_imp.2 fun _ => decide_eq_false (Nat.not_lt.2 (Nat.le_add_right s.time.now 20))
  exact arriveChar_heard (s := s.hearing r) hopened hbreak hgap c

theorem takeChar_sync : (s.hearing .hunt).takeChar frameSync = s.hearing (.frame []) := rfl

theorem takeChar_noSync {c : Byte} (h : c ≠ frameSync) : (s.hearing .hunt).takeChar c = s.hearing .hunt := if_neg h

theorem takeChar_length {l : Byte} (hlow : 2 ≤ l.toNat) (hhigh : l.toNat ≤ 250) :
    (s.hearing (.frame [])).takeChar l = s.hearing (.frame [l]) := if_pos ⟨hlow, hhigh⟩

theorem takeChar_badLength {l : Byte} (h : l.toNat < 2 ∨ 250 < l.toNat) :
    (s.hearing (.frame [])).takeChar l = (s.hearing .hunt).raise .link := if_neg (by omega)

theorem takeChar_last {l : Byte} {got : List Byte} (h : got.length + 1 = l.toNat) (c : Byte) :
    (s.hearing (.frame (l :: got))).takeChar c = s.hearing (.check (l :: (got ++ [c])) []) := if_pos h

theorem takeChar_more {l : Byte} {got : List Byte} (h : got.length + 1 ≠ l.toNat) (c : Byte) :
    (s.hearing (.frame (l :: got))).takeChar c = s.hearing (.frame (l :: (got ++ [c]))) := if_neg h

end

/-! ## A frame, character by character (R159, R161, R183) -/

/-- Characters arrive, one after another. -/
def State.arriveChars (cs : List Byte) (s : State) : State := cs.foldl (fun s c => s.arriveChar c) s

section

variable {s : State}

theorem arriveChars_cons (c : Byte) (cs : List Byte) : s.arriveChars (c :: cs) = (s.arriveChar c).arriveChars cs := rfl

/-- The characters that a length byte announces: after the last the receiver expects the check. -/
theorem arriveChars_covered (hopened : s.port.opened = true) (hbreak : s.port.lineBreak = false) {l : Byte}
    (cs rest : List Byte) (got : List Byte) (hcs : cs ≠ []) (hl : got.length + cs.length = l.toNat) :
    (s.hearing (.frame (l :: got))).arriveChars (cs ++ rest) =
      (s.hearing (.check (l :: (got ++ cs)) [])).arriveChars rest := by
  induction cs generalizing got with
  | nil => exact absurd rfl hcs
  | cons c cs ih =>
    rw [List.length_cons] at hl
    rw [List.cons_append, arriveChars_cons, arriveChar_hearing hopened hbreak]
    rcases eq_or_ne cs [] with rfl | hmore
    · rw [takeChar_last (by simpa using hl), List.nil_append]
    · have := List.length_pos_iff.2 hmore
      rw [takeChar_more (by omega), ih (got ++ [c]) hmore (by simp; omega), List.append_assoc, List.singleton_append]

/-- A frame that arrives in HUNT is judged by its check. -/
theorem arriveChars_frame (hopened : s.port.opened = true) (hbreak : s.port.lineBreak = false)
    (hhunt : s.port.receiver = .hunt) {l : Byte} {cs : List Byte} (hl : cs.length = l.toNat) (hlow : 2 ≤ cs.length)
    (hhigh : cs.length ≤ 250) (lo hi : Byte) :
    s.arriveChars (frameSync :: (l :: cs ++ [lo, hi])) = (s.hearing .hunt).judgeFrame (l :: cs) [lo, hi] := by
  have hcs : cs ≠ [] := List.ne_nil_of_length_pos (by omega)
  rw [arriveChars_cons, arriveChar_heard hopened hbreak (gap_hunt hhunt), hhunt, takeChar_sync, List.cons_append,
    arriveChars_cons, arriveChar_hearing hopened hbreak, takeChar_length (by omega) (by omega),
    arriveChars_covered hopened hbreak cs _ [] hcs (by simpa using hl), arriveChars_cons,
    arriveChar_hearing hopened hbreak]
  exact arriveChar_hearing (s := s) hopened hbreak (.check (l :: cs) [lo]) hi

/-- A frame with the check of what it covers offers its request to the intake (R161). -/
theorem judgeFrame_checked (l kind tag : Byte) (body : List Byte) :
    s.judgeFrame (l :: kind :: tag :: body) (crcBytes (l :: kind :: tag :: body)) =
      if s.port.intake.length < 8 then
        { s with port := { s.port with intake := s.port.intake ++ [⟨kind, tag, body⟩] } }
      else (s.raise .link).queueError (frameBytes (replyKind kind) tag [3, byte s.port.intake.length]) := by
  rw [State.judgeFrame, if_pos rfl]
  rfl

theorem judgeFrame_unchecked {got crc : List Byte} (h : crc ≠ crcBytes got) :
    s.judgeFrame got crc = (s.raise .link).queueError (frameBytes 0xFF 0 [2, byte s.port.intake.length]) :=
  if_neg h

theorem toNat_frameLength {body : List Byte} (h : body.length ≤ 248) :
    (byte (body.length + 2)).toNat = body.length + 2 := by
  rw [byte, BitVec.toNat_ofNat]
  omega

end

/-- Settles O42: a frame is taken character by character and judged by its check; HUNT waits for the sync value. -/
theorem frameIsReceivedAsTheRequestItCarries : Obligations.FrameIsReceivedAsTheRequestItCarries := by
  intro t s r hp hopened hbreak hhunt hbody s₀ covered waiting
  have hexec (cs : List Byte) : exec (.frameReceived t cs) s = .next ((s.atInstant t).arriveChars cs) :=
    occurs_powered hp t fun s => s.arriveChars cs
  have hheard : (s.atInstant t).hearing .hunt = s₀ := hearing_same hhunt
  have hframe (lo hi : Byte) :
      (s.atInstant t).arriveChars (frameSync :: (covered ++ [lo, hi])) = s₀.judgeFrame covered [lo, hi] := by
    rw [arriveChars_frame (s := s.atInstant t) (cs := r.kind :: r.tag :: r.body) hopened hbreak hhunt
      (toNat_frameLength hbody).symm (Nat.le_add_left _ _) (Nat.add_le_add_right hbody 2), hheard]
  refine ⟨?_, fun lo hi h => ?_, fun c hc => ?_⟩
  · rw [hexec]
    exact congrArg Host.Outcome.next ((hframe _ _).trans (judgeFrame_checked _ _ _ _))
  · rw [hexec]
    exact congrArg Host.Outcome.next ((hframe lo hi).trans (judgeFrame_unchecked h))
  · rw [hexec, arriveChars_cons, arriveChar_heard (s := s.atInstant t) hopened hbreak (gap_hunt hhunt),
      show (s.atInstant t).port.receiver = .hunt from hhunt, takeChar_noSync hc, hheard]
    rfl

/-! ## What cuts a frame short (R159, R160, R178) -/

section

variable {t : Nat} {s : State}

theorem exec_frameBegins (hp : s.power ≠ .off) (hopened : s.port.opened = true) (hbreak : s.port.lineBreak = false)
    (hhunt : s.port.receiver = .hunt) : exec (.frameBegins t) s = .next ((s.atInstant t).hearing (.frame [])) := by
  rw [show exec (.frameBegins t) s = execFrameBegins t s from rfl, execFrameBegins, occurs_powered hp,
    if_pos (show (s.atInstant t).port.receiver = .hunt from hhunt),
    arriveChar_heard (s := s.atInstant t) hopened hbreak (gap_hunt hhunt),
    show (s.atInstant t).port.receiver = .hunt from hhunt, takeChar_sync]

theorem exec_badLength (hp : s.power ≠ .off) (hopened : s.port.opened = true) (hbreak : s.port.lineBreak = false)
    (hr : s.port.receiver = .frame []) (hnow : max s.time.now t ≤ s.port.lastCharAt + 20) {length : Byte}
    (hbad : length.toNat < 2 ∨ 250 < length.toNat) :
    exec (.badLength t length) s = .next (((s.atInstant t).hearing .hunt).raise .link) := by
  have hr' : (s.atInstant t).port.receiver = .frame [] := hr
  have hgap : (s.atInstant t).gap = false :=
    Bool.eq_false_iff.2 fun h => absurd ((gap_iff (by simp [hr'])).1 h) (Nat.not_lt.2 hnow)
  rw [show exec (.badLength t length) s = execBadLength t length s from rfl, execBadLength, occurs_powered hp,
    if_pos ⟨by rw [hr']; rfl, hbad⟩, arriveChar_heard (s := s.atInstant t) hopened hbreak hgap, hr',
    takeChar_badLength hbad]

theorem exec_frameGapTimeout (hp : s.power ≠ .off) (hr : s.port.receiver ≠ .hunt) :
    exec (.frameGapTimeout t) s = .next
      (if s.port.lastCharAt + 20 < max s.time.now t then (s.atInstant t).dropFrame else s.atInstant t) := by
  rw [show exec (.frameGapTimeout t) s = execFrameGapTimeout t s from rfl, execFrameGapTimeout, occurs_powered hp]
  simp only [gap_iff (s := s.atInstant t) hr]
  rfl

theorem exec_lineBreakEnd (hp : s.power ≠ .off) :
    exec (.lineBreakEnd t) s = .next { s.atInstant t with
      port := ({ s.port with lineBreak := false } : Port).sending s.port.outbound } := by
  rw [show exec (.lineBreakEnd t) s = execLineBreakEnd t s from rfl, execLineBreakEnd, occurs_powered hp,
    startSending_sending]
  rfl

theorem breakGap_eq (s : State) : s.breakGap = if s.port.receiver = .hunt then s else s.dropFrame := by
  simp only [State.breakGap, midFrame_eq_true, ite_not]

theorem exec_lineBreak (hp : s.power ≠ .off) (hopened : s.port.opened = true) (hbreak : s.port.lineBreak = false)
    (boot : Boot) : exec (.lineBreak t boot) s = .next ((s.atInstant t).breakLine boot) := by
  rw [show exec (.lineBreak t boot) s = execLineBreak t boot s from rfl, execLineBreak, occurs_powered hp]
  exact congrArg Host.Outcome.next (if_pos ⟨hopened, hbreak⟩)

end

/-- What a break makes of the part: the partial frame meets the gap of R159, then the queues go (R160). -/
theorem breakLine_eq (boot : Boot) (s : State) :
    s.breakLine boot =
      let raised := (if s.port.receiver = .hunt then s else s.dropFrame).raise .link
      let broken : State := { raised with port := { raised.port with
        receiver := .hunt
        lineBreak := true
        intake := if s.port.executing then s.port.intake.take 1 else []
        guestWaits := false
        outbound := []
        transmitter := .idle } }
      if ∃ f ∈ s.port.outbound, f.resets = true then broken.fullReset boot else broken := by
  have honly : (s.breakGap.raise .link).port.onlyBegun = if s.port.executing then s.port.intake.take 1 else [] := by
    rw [breakGap_eq]
    split <;> rfl
  rw [State.breakLine, ← breakGap_eq]
  simp only [List.any_eq_true, State.onPort, Port.broken, honly]

/-- Settles O43: one command of the line after another. -/
theorem lineTroubleDiscardsFramesAndQueues : Obligations.LineTroubleDiscardsFramesAndQueues := by
  intro t s hp s₀ now receiving hunting
  refine ⟨fun hopened hbreak => ⟨exec_frameBegins hp hopened hbreak,
    fun hr hnow length hbad => exec_badLength hp hopened hbreak hr hnow hbad, fun boot => ?_⟩, fun hr => ?_, ?_⟩
  · intro gapped raised broken
    rw [exec_lineBreak hp hopened hbreak, breakLine_eq]
    rfl
  · exact exec_frameGapTimeout hp hr
  · rw [exec_lineBreakEnd hp]
    simp only [Port.sending, true_and]
    rfl

end Sys2Proof.Machine
end

section
/-! PROOF. Events: how a raise counts, the attention line, and the requests that read, clear and enable event classes
(R164 to R166, R183; O47). -/

namespace Sys2Proof.Machine

/-! ## The bits of the classes (R183) -/

theorem EventClass.mem_all (c : EventClass) : c ∈ EventClass.all := by
  cases c <;> simp [EventClass.all]

theorem EventClass.bit_lt (c : EventClass) : c.bit < 8 := by
  cases c <;> decide

theorem EventClass.bit_inj {c d : EventClass} : c.bit = d.bit ↔ c = d := by
  cases c <;> cases d <;> decide

theorem EventClass.exists_bit_eq : ∀ i < 8, ∃ c : EventClass, c.bit = i
  | 0, _ => ⟨.charge, rfl⟩
  | 1, _ => ⟨.journalHigh, rfl⟩
  | 2, _ => ⟨.key, rfl⟩
  | 3, _ => ⟨.lock, rfl⟩
  | 4, _ => ⟨.route, rfl⟩
  | 5, _ => ⟨.property, rfl⟩
  | 6, _ => ⟨.link, rfl⟩
  | 7, _ => ⟨.screen, rfl⟩
  | _ + 8, h => absurd h (by omega)

theorem EventClass.getLsbD_bit (c d : EventClass) :
    (BitVec.ofNat 8 (2 ^ d.bit)).getLsbD c.bit = decide (d = c) := by
  rw [BitVec.getLsbD_ofNat, decide_eq_true c.bit_lt, Bool.true_and, Nat.testBit_two_pow, decide_eq_decide,
    EventClass.bit_inj]

/-! ## Raises (R164) -/

theorem get_raise (s : State) (c d : EventClass) :
    (s.raise c).port.events.get d =
      if d = c then ⟨true, min ((s.port.events.get c).count + 1) 255⟩ else s.port.events.get d := by
  by_cases h : d = c
  · rw [if_pos h, h]
    exact Events.get_set_same _ _ _
  · rw [if_neg h]
    exact Events.get_set_other _ _ h

theorem get_raiseTimes (c : EventClass) {n : Nat} (hn : 0 < n) (s : State) :
    (s.raiseTimes c n).port.events.get c = ⟨true, min ((s.port.events.get c).count + n) 255⟩ := by
  induction n generalizing s with
  | zero => exact absurd hn (Nat.lt_irrefl 0)
  | succ n ih =>
    rw [State.raiseTimes]
    rcases Nat.eq_zero_or_pos n with rfl | hn
    · rw [State.raiseTimes, get_raise, if_pos rfl]
    · rw [ih hn, get_raise, if_pos rfl]
      simp only [EventRecord.mk.injEq, true_and]
      omega

/-! ## The attention line (R166) -/

/-- A class joins a set where it is pending. -/
theorem getLsbD_join (acc : BitVec 8) (pending : Bool) (c d : EventClass) :
    (if pending then acc ||| BitVec.ofNat 8 (2 ^ d.bit) else acc).getLsbD c.bit =
      (acc.getLsbD c.bit || (pending && decide (d = c))) := by
  cases pending with
  | false => simp
  | true => rw [if_pos rfl, BitVec.getLsbD_or, EventClass.getLsbD_bit, Bool.true_and]

theorem getLsbD_pendingSet (e : Events) (c : EventClass) : e.pendingSet.getLsbD c.bit = (e.get c).pending := by
  have hfold (l : List EventClass) (acc : BitVec 8) :
      (l.foldl (fun acc c => if (e.get c).pending then acc ||| BitVec.ofNat 8 (2 ^ c.bit) else acc) acc).getLsbD c.bit =
        (acc.getLsbD c.bit || ((e.get c).pending && decide (c ∈ l))) := by
    induction l generalizing acc with
    | nil => simp
    | cons d l ih =>
      rw [List.foldl_cons, ih, getLsbD_join]
      rcases eq_or_ne d c with rfl | hd
      · cases (e.get d).pending <;> simp
      · simp [hd, hd.symm]
  rw [Events.pendingSet, hfold, decide_eq_true c.mem_all, Bool.and_true,
    show (0 : BitVec 8).getLsbD c.bit = false from BitVec.getLsbD_zero, Bool.false_or]

theorem attention_iff (s : State) :
    s.attention = true ↔ ∃ c, (s.port.events.get c).pending = true ∧ s.port.enabled.getLsbD c.bit = true := by
  have hbit (c : EventClass) :
      (s.port.events.pendingSet &&& s.port.enabled).getLsbD c.bit = true ↔
        (s.port.events.get c).pending = true ∧ s.port.enabled.getLsbD c.bit = true := by
    rw [BitVec.getLsbD_and, getLsbD_pendingSet, Bool.and_eq_true]
  simp only [State.attention, decide_eq_true_iff, ← hbit]
  refine ⟨fun h => ?_, fun ⟨c, hc⟩ h => ?_⟩
  · by_contra hnone
    refine h (BitVec.eq_of_getLsbD_eq fun i hi => ?_)
    obtain ⟨c, rfl⟩ := EventClass.exists_bit_eq i hi
    simpa using not_exists.1 hnone c
  · rw [h] at hc
    simp at hc

/-! ## Clearing a set (R165) -/

theorem Events.get_clearSet (set : BitVec 8) (e : Events) (c : EventClass) :
    (e.clearSet set).get c = if set.getLsbD c.bit then .clear else e.get c := by
  have hfold (l : List EventClass) (e : Events) :
      (l.foldl (fun e c => if set.getLsbD c.bit then e.set .clear c else e) e).get c =
        if c ∈ l ∧ set.getLsbD c.bit then .clear else e.get c := by
    induction l generalizing e with
    | nil => simp
    | cons d l ih =>
      rw [List.foldl_cons, ih]
      by_cases hd : c = d
      · subst hd
        cases h : set.getLsbD c.bit <;> simp
      · cases h : set.getLsbD d.bit <;> simp [hd, Events.get_set_other _ _ hd]
  rw [Events.clearSet, hfold]
  simp only [c.mem_all, true_and]

theorem classSet_formed {b : List Byte} (h : field 1 1 b = 0) : classSet b = some (BitVec.ofNat 8 (field 0 1 b)) :=
  if_pos h

theorem classSet_malformed {b : List Byte} (h : field 1 1 b ≠ 0) : classSet b = none := if_neg h

theorem getLsbD_classSet (b : List Byte) (c : EventClass) :
    (BitVec.ofNat 8 (field 0 1 b)).getLsbD c.bit = (field 0 1 b).testBit c.bit := by
  rw [BitVec.getLsbD_ofNat, decide_eq_true c.bit_lt, Bool.true_and]

/-! ## The requests (R165) -/

theorem eventsReply_eq (s : State) :
    let e := s.port.events
    s.eventsReply =
      flag e.charge.pending ++ flag e.journalHigh.pending ++ flag e.key.pending ++ flag e.lock.pending ++
        flag e.route.pending ++ flag e.property.pending ++ flag e.link.pending ++ flag e.screen.pending ++
        amount e.charge.count ++ amount e.journalHigh.count ++ amount e.key.count ++ amount e.lock.count ++
        amount e.route.count ++ amount e.property.count ++ amount e.link.count ++ amount e.screen.count ++
        leBytes 2 s.port.enabled.toNat := by
  simp only [State.eventsReply, EventClass.all, List.map_cons, List.map_nil, List.flatten_cons, List.flatten_nil,
    Events.get, List.append_assoc, List.append_nil]

section

variable {t : Nat} {s : State} {r : Request}

theorem exec_readEvents (hb : Begins 0x05 .everyMode s r) :
    exec (.readEvents t) s = .next ((s.atInstant t).reply .ok s.eventsReply) := by
  rw [show exec (.readEvents t) s = execReadEvents t s from rfl, execReadEvents, occurs_powered hb.powered,
    request_begins t hb]
  rfl

theorem exec_clearEvents_malformed (hb : Begins 0x06 .everyMode s r) (h : field 1 1 r.body ≠ 0) :
    exec (.clearEvents t) s = .next ((s.atInstant t).reply .badArgument []) := by
  rw [show exec (.clearEvents t) s = execClearEvents t s from rfl, execClearEvents, occurs_powered hb.powered,
    request_begins t hb, classSet_malformed h]

theorem exec_clearEvents_formed (hb : Begins 0x06 .everyMode s r) (h : field 1 1 r.body = 0) :
    exec (.clearEvents t) s = .next
      (((s.atInstant t).clearEvents (BitVec.ofNat 8 (field 0 1 r.body))).reply .ok []) := by
  rw [show exec (.clearEvents t) s = execClearEvents t s from rfl, execClearEvents, occurs_powered hb.powered,
    request_begins t hb, classSet_formed h]

theorem exec_setEventMask_malformed (hb : Begins 0x07 .everyMode s r) (h : field 1 1 r.body ≠ 0) :
    exec (.setEventMask t) s = .next ((s.atInstant t).reply .badArgument []) := by
  rw [show exec (.setEventMask t) s = execSetEventMask t s from rfl, execSetEventMask, occurs_powered hb.powered,
    request_begins t hb, classSet_malformed h]

theorem exec_setEventMask_formed (hb : Begins 0x07 .everyMode s r) (h : field 1 1 r.body = 0) :
    exec (.setEventMask t) s = .next (({ s.atInstant t with
      port := { s.port with enabled := BitVec.ofNat 8 (field 0 1 r.body) } } : State).reply .ok []) := by
  rw [show exec (.setEventMask t) s = execSetEventMask t s from rfl, execSetEventMask, occurs_powered hb.powered,
    request_begins t hb, classSet_formed h]
  rfl

end

/-- Settles O47: the three requests, then raises and the attention line. -/
theorem eventsAreRaisedReadAndCleared : Obligations.EventsAreRaisedReadAndCleared := by
  refine ⟨fun t s r => ?_, get_raise, fun s c => rfl, fun s c n hn => get_raiseTimes c hn s, attention_iff⟩
  intro s₀ e named formed flagged
  refine ⟨fun hb => ?_, fun hb => ⟨fun hf => exec_clearEvents_malformed hb hf, fun hf => ?_⟩,
    fun hb => ⟨fun hf => exec_setEventMask_malformed hb hf, fun hf => exec_setEventMask_formed hb hf⟩⟩
  · rw [exec_readEvents hb, eventsReply_eq]
    simp only [List.append_assoc]
    rfl
  · refine ⟨s.port.events.clearSet (BitVec.ofNat 8 (field 0 1 r.body)), fun c => ?_, exec_clearEvents_formed hb hf⟩
    rw [Events.get_clearSet, getLsbD_classSet]
    exact ⟨fun h => if_pos h, fun h => if_neg h⟩

end Sys2Proof.Machine
end

section
/-! PROOF. What the replies to queries carry: the lengths of the fields and of the sections, the codes as the bytes they
are carried as, and the lists a body holds (R35, R65, R78, R98, R112, R144, R157, R167 to R169, R183 to R185). -/

namespace Sys2Proof.Machine

/-! ## The lengths of the fields (R185) -/

@[simp] theorem length_amount (n : Nat) : (amount n).length = 4 := leBytes_length 4 n
@[simp] theorem length_ident (n : Nat) : (ident n).length = 2 := leBytes_length 2 n
@[simp] theorem length_flag (b : Bool) : (flag b).length = 1 := rfl
@[simp] theorem length_code (n : Nat) : (code n).length = 1 := rfl
@[simp] theorem length_optZero (width : Nat) (n : Option Nat) : (optZero width n).length = width := leBytes_length ..

@[simp] theorem length_optOnes (width : Nat) (n : Option Nat) : (optOnes width n).length = width := by
  cases n with
  | none => exact List.length_replicate
  | some n => exact leBytes_length width n

@[simp] theorem length_timeField (p : PTime) : (timeField p).length = 6 := by simp [timeField, leBytes_length]

@[simp] theorem length_propertyField (p : Option PTime) : (propertyField p).length = 6 := by
  cases p with
  | none => simp [propertyField, leBytes_length]
  | some p => exact length_timeField p

@[simp] theorem length_remaining (s : State) (deadline : Option Nat) : (s.remaining deadline).length = 4 :=
  length_optOnes ..

@[simp] theorem length_epochField (k : Option CellKey) : (epochField k).length = 2 := length_optOnes ..

@[simp] theorem length_outStateField (d : OutState) : (outStateField d).length = 2 := by cases d <;> rfl

@[simp] theorem length_stagedField (x : Option Staged) : (stagedField x).length = 2 := by
  rcases x with - | - | - <;> exact length_ident _

/-! ## The lengths of the items of lists -/

@[simp] theorem length_engineField (e : Engine) : (engineField e).length = 3 := by cases e <;> simp [engineField]

@[simp] theorem length_groupField (s : State) (g : Nat) : (s.groupField g).length = 10 := by simp [State.groupField]

@[simp] theorem length_unlockField (s : State) (u : Option Unlock) : (s.unlockField u).length = 5 := by
  simp [State.unlockField]

@[simp] theorem length_screenField (s : State) (x : Output) : (s.screenField x).length = 26 := by
  simp [State.screenField]

@[simp] theorem length_purchaseField (p : Purchase) : (purchaseField p).length = 26 := by simp [purchaseField]

@[simp] theorem length_previewField (v : Preview) : (previewField v).length = 6 := by simp [previewField]

@[simp] theorem length_sessionField (s : State) (x : Session) : (s.sessionField x).length = 36 := by
  simp [State.sessionField, leBytes_length]

@[simp] theorem length_ratesField (r : Rates) : (ratesField r).length = 4 := by simp [ratesField, leBytes_length]

@[simp] theorem length_assemblyField (a : Assembly) : (assemblyField a).length = 8 := by
  simp [assemblyField, leBytes_length]

/-! ## Lists (R185) -/

/-- A body whose `fields` are a head and one list: of `total` items, a first part of `records`, none of which would
fit beside it. -/
def Carries (head fields : List Byte) (total : Nat) (records : List (List Byte)) : Prop :=
  ∃ k, k ≤ records.length ∧ fields = head ++ byte total :: byte k :: (records.take k).flatten ∧
    ∀ next, records[k]? = some next → 246 < fields.length + next.length

theorem carries_listField {head : List Byte} (h : head.length ≤ 244) (total : Nat) (records : List (List Byte)) :
    Carries head (head ++ listField total (roomLeft head 1) records) total records := by
  obtain ⟨k, hk, hfit, hlen, hnext⟩ := fit_prefix (roomLeft head 1) records
  refine ⟨k, hk, by rw [listField, carriedList, ← hlen, hfit], fun next hx => ?_⟩
  have hroom := hnext next hx
  rw [roomLeft] at hroom
  simp only [listField, carriedList, hfit, List.length_append, List.length_cons]
  omega

theorem length_listField_le {head : List Byte} (h : head.length ≤ 244) (total : Nat) (records : List (List Byte)) :
    (head ++ listField total (roomLeft head 1) records).length ≤ 246 := by
  have hfit := fit_length (roomLeft head 1) records
  rw [roomLeft] at hfit
  simp only [listField, carriedList, roomLeft, List.length_append, List.length_cons]
  omega

/-- A body whose `fields` are a head and two lists, each paged from `start` and each with its first item (R167). -/
def CarriesBoth (start : Nat) (head fields : List Byte) (xs ys : List (List Byte)) : Prop :=
  ∃ j k, j ≤ (xs.drop start).length ∧ k ≤ (ys.drop start).length ∧
    fields = head ++ (byte xs.length :: byte j :: ((xs.drop start).take j).flatten) ++
      (byte ys.length :: byte k :: ((ys.drop start).take k).flatten) ∧
    (start < xs.length → 1 ≤ j) ∧ (start < ys.length → 1 ≤ k) ∧
    ∀ next, (xs.drop start)[j]? = some next ∨ (ys.drop start)[k]? = some next →
      246 < fields.length + next.length

theorem carriesBoth_pagedLists {head : List Byte} {xs ys : List (List Byte)} {a b : Nat} (start : Nat)
    (hxs : ∀ x ∈ xs, x.length = a) (hys : ∀ y ∈ ys, y.length = b) (h : head.length + a + b ≤ 242) :
    CarriesBoth start head (pagedLists start head xs ys) xs ys := by
  have hroom : roomLeft head 2 = 242 - head.length := by rw [roomLeft]; omega
  obtain ⟨j, hj, k, hk, hboth, -, hnext⟩ := fitBoth_prefix (roomLeft head 2) (xs.drop start) (ys.drop start)
  have hx : ∀ x ∈ xs.drop start, x.length = a := fun x hx => hxs x (List.mem_of_mem_drop hx)
  have hy : ∀ y ∈ ys.drop start, y.length = b := fun y hy => hys y (List.mem_of_mem_drop hy)
  have hheads := fitBoth_heads (roomLeft head 2) (xs.drop start) (ys.drop start)
    (fun x hmem y hmem' => by rw [hx x hmem, hy y hmem']; omega) (fun x hmem => by rw [hx x hmem]; omega)
    (fun y hmem => by rw [hy y hmem]; omega)
  rw [hboth] at hheads
  refine ⟨j, k, hj, hk, ?_, fun hs => ?_, fun hs => ?_, fun next hat => ?_⟩
  · rw [pagedLists, hboth]
    simp only [carriedList, List.length_take, Nat.min_eq_left hj, Nat.min_eq_left hk]
  · have := hheads.1 (mt List.drop_eq_nil_iff.1 (Nat.not_le.2 hs))
    exact Nat.pos_of_ne_zero fun h => this (by rw [h]; rfl)
  · have := hheads.2 (mt List.drop_eq_nil_iff.1 (Nat.not_le.2 hs))
    exact Nat.pos_of_ne_zero fun h => this (by rw [h]; rfl)
  · have hfull := hnext next hat
    simp only [pagedLists, hboth, carriedList, List.length_append, List.length_cons]
    omega

theorem length_pagedLists_le {head : List Byte} (h : head.length ≤ 242) (start : Nat) (xs ys : List (List Byte)) :
    (pagedLists start head xs ys).length ≤ 246 := by
  obtain ⟨j, -, k, -, hboth, hfit, -⟩ := fitBoth_prefix (roomLeft head 2) (xs.drop start) (ys.drop start)
  rw [roomLeft] at hfit
  simp only [pagedLists, hboth, carriedList, List.length_append, List.length_cons]
  omega

/-! ## The sections of STATUS and the other replies within a body -/

/-- The items of a section, each of the same length. -/
theorem length_flatten_map {α : Type} {f : α → List Byte} {n : Nat} (hf : ∀ x, (f x).length = n) (l : List α) :
    (l.map f).flatten.length = l.length * n := by
  simp [List.length_flatten, Function.comp_def, hf]

theorem carries_enginesSection (s : State) (start : Nat) :
    Carries (code s.cur.settings.power.code ++ (s.pool.engines.toList.map engineField).flatten)
      (s.enginesSection start) s.pool.wait.length ((s.pool.wait.drop start).map fun w => ident w.service) := by
  rw [List.map_drop, ← List.length_map (f := fun w : WaitEntry => ident w.service)]
  exact carries_listField (by simp [Three.toList]) _ _

theorem carriesBoth_billingSection (s : State) (start : Nat) :
    CarriesBoth start (leBytes 4 s.cur.tiers.toNat ++ ident s.cur.policy.preview) (s.billingSection start)
      (s.cur.purchases.map purchaseField) (s.cur.previews.map previewField) :=
  carriesBoth_pagedLists (a := 26) (b := 6) start (by simp) (by simp) (by simp [leBytes_length])

theorem carriesBoth_meterSection (s : State) (start : Nat) :
    CarriesBoth start
      (ratesField s.cur.rates ++ amount s.cur.room.limit ++ amount s.cur.room.spend ++ amount s.room.pendingCharge ++
        amount (accruedTotal s.cur.meter))
      (s.meterSection start) (s.cur.meter.map s.sessionField)
      (s.cur.daySpend.map fun d => ident d.service ++ amount d.units) :=
  carriesBoth_pagedLists (a := 36) (b := 6) start (by simp) (by simp) (by simp)

/-- A STATUS names a section by its place in the order of R167. -/
theorem statusSection_eq (s : State) (part first : Nat) :
    s.statusSection part first =
      [s.roomSection, s.keysSection, s.enginesSection first, s.lockSection, s.billingSection first,
        s.meterSection first, s.journalSection, s.portSection][part]? := by
  match part with
  | 0 | 1 | 2 | 3 | 4 | 5 | 6 | 7 => rfl
  | part + 8 => simp [State.statusSection]

theorem length_statusSection_le {s : State} {part first : Nat} {fields : List Byte}
    (h : s.statusSection part first = some fields) : fields.length ≤ 246 := by
  rw [statusSection_eq] at h
  have hmem := List.mem_of_getElem? h
  simp only [List.mem_cons, List.not_mem_nil, or_false] at hmem
  rcases hmem with rfl | rfl | rfl | rfl | rfl | rfl | rfl | rfl
  · simp [State.roomSection]
  · simp [State.keysSection, length_flatten_map (length_groupField s)]
  · exact length_listField_le (by simp [Three.toList]) _ _
  · simp [State.lockSection, Four.toList]
  · exact length_pagedLists_le (by simp [leBytes_length]) _ _ _
  · exact length_pagedLists_le (by simp) _ _ _
  · simp [State.journalSection]
  · simp [State.portSection]

theorem length_screenStatus_le (s : State) : s.screenStatus.length ≤ 246 := by
  simp [State.screenStatus, Four.toList]

theorem length_settingsReply_le (s : State) : s.settingsReply.length ≤ 246 := by
  simp [State.settingsReply, settingsField, policyField, leBytes_length]

/-! ## Codes as the bytes they are carried as (R183 to R185) -/

theorem code_roomState (x : RoomState) :
    code x.code = [match x with | .vacant => 0 | .occupied => 1 | .settling => 2] := by
  cases x <;> rfl

theorem code_accessMode (x : AccessMode) :
    code x.code = [match x with | .lockdown => 0 | .maintenance => 1 | .normal => 2] := by
  cases x <;> rfl

theorem code_powerPolicy (x : PowerPolicy) : code x.code = [match x with | .auto => 0 | .always => 1] := by
  cases x <;> rfl

theorem code_receiver (x : Receiver) :
    code x.code = [match x with | .hunt => 0 | .frame _ => 1 | .check _ _ => 2] := by
  cases x <;> rfl

/-- A code of two values is carried as a flag is. -/
theorem code_ite (b : Bool) : code (if b then 1 else 0) = flag b := by
  cases b <;> rfl

theorem code_absent (present : Bool) : code (if present then 0 else 1) = [if present then 0 else 1] := by
  cases present <;> rfl

theorem byte_basis (x : Basis) :
    byte x.code = match x with | .free => 0 | .tier => 1 | .purchase => 2 | .preview => 3 | .metered => 4 := by
  cases x <;> rfl

theorem byte_reason (x : Reason) :
    byte x.code = match x with
      | .lock => 0 | .unpaid => 1 | .limit => 2 | .journalFull => 3 | .suspended => 4 | .noKey => 5 | .wait => 6
      | .noSignal => 7 | .noService => 8 | .noInfo => 9 := by
  cases x <;> rfl

theorem outStateField_eq (d : OutState) :
    outStateField d = match d with
      | .off => [0, 0]
      | .absent => [1, 0]
      | .tuning => [2, 0]
      | .playing b => [3, match b with | .free => 0 | .tier => 1 | .purchase => 2 | .preview => 3 | .metered => 4]
      | .slate why => [4, match why with
        | .lock => 0 | .unpaid => 1 | .limit => 2 | .journalFull => 3 | .suspended => 4 | .noKey => 5 | .wait => 6
        | .noSignal => 7 | .noService => 8 | .noInfo => 9] := by
  cases d with
  | off | absent | tuning => rfl
  | playing b => rw [outStateField, byte_basis]
  | slate why => rw [outStateField, byte_reason]

/-- An engine by its number, which is one above its place, and 0 for none (R98; log 7). -/
theorem engineReference_eq (e : Option EngineId) :
    optZero 1 (e.map fun e => e.val + 1) = [match e with | none => 0 | some 0 => 1 | some 1 => 2 | some 2 => 3] := by
  match e with
  | none | some 0 | some 1 | some 2 => rfl

theorem closingField_eq (x : Option CloseCause) :
    optOnes 1 (x.map CloseCause.code) = [match x with
      | none => 0xFF | some .expiry => 0 | some .limit => 1 | some .eviction => 2 | some .checkOut => 3
      | some .suspend => 4 | some .startUp => 5] := by
  match x with
  | none | some .expiry | some .limit | some .eviction | some .checkOut | some .suspend | some .startUp => rfl

end Sys2Proof.Machine
end

section
/-! PROOF. The queries: each is replied with the state as it stands, and changes nothing but the queues (R167 to R169,
R185; O46). -/

namespace Sys2Proof.Machine

/-! ## The requests -/

section

variable {t : Nat} {s : State} {r : Request}

theorem exec_status_known {fields : List Byte} (hb : Begins 0x01 .everyMode s r)
    (h : (s.atInstant t).statusSection (field 0 1 r.body) (field 1 1 r.body) = some fields) :
    exec (.status t) s = .next ((s.atInstant t).reply .ok fields) := by
  rw [show exec (.status t) s = execStatus t s from rfl, execStatus, occurs_powered hb.powered, request_begins t hb, h]

theorem exec_status_unknown (hb : Begins 0x01 .everyMode s r)
    (h : (s.atInstant t).statusSection (field 0 1 r.body) (field 1 1 r.body) = none) :
    exec (.status t) s = .next ((s.atInstant t).reply .badArgument []) := by
  rw [show exec (.status t) s = execStatus t s from rfl, execStatus, occurs_powered hb.powered, request_begins t hb, h]

theorem exec_screenStatus (hb : Begins 0x02 .everyMode s r) :
    exec (.screenStatus t) s = .next ((s.atInstant t).reply .ok (s.atInstant t).screenStatus) := by
  rw [show exec (.screenStatus t) s = execScreenStatus t s from rfl, execScreenStatus, occurs_powered hb.powered,
    request_begins t hb]

theorem exec_lineupRead (hb : Begins 0x03 .everyMode s r) :
    exec (.lineupRead t) s = .next ((s.atInstant t).reply .ok (s.lineupReply (field 0 2 r.body))) := by
  rw [show exec (.lineupRead t) s = execLineupRead t s from rfl, execLineupRead, occurs_powered hb.powered,
    request_begins t hb]
  rfl

theorem exec_catalogueRead (hb : Begins 0x04 .everyMode s r) :
    exec (.catalogueRead t) s = .next ((s.atInstant t).reply .ok (s.catalogueReply (field 0 2 r.body))) := by
  rw [show exec (.catalogueRead t) s = execCatalogueRead t s from rfl, execCatalogueRead, occurs_powered hb.powered,
    request_begins t hb]
  rfl

theorem exec_settingsRead (hb : Begins 0x0B .everyMode s r) :
    exec (.settingsRead t) s = .next ((s.atInstant t).reply .ok s.settingsReply) := by
  rw [show exec (.settingsRead t) s = execSettingsRead t s from rfl, execSettingsRead, occurs_powered hb.powered,
    request_begins t hb]
  rfl

end

/-! ## The obligation -/

/-- Settles O46: the sections field by field, the items of the lists, the lists two by two, and the requests. -/
theorem queriesReportTheStateAndChangeNothing : Obligations.QueriesReportTheStateAndChangeNothing := by
  unfold Obligations.QueriesReportTheStateAndChangeNothing
  intro answers lists both bit time orZero orOnes
  refine ⟨fun s => ?_, fun a x c p v => ?_, fun start s => ?_, fun t s r => ?_⟩
  · intro r left epoch unlock engine shows screen
    have hengine : engineField = engine := funext fun e => by cases e <;> rfl
    have hscreen : s.screenField = screen := funext fun x => by
      rw [State.screenField, code_absent, outStateField_eq, outStateField_eq, engineReference_eq]
      rfl
    refine ⟨?_, rfl, fun start => ?_, rfl, ?_, ?_, ?_, fun x => ?_⟩
    · rw [State.roomSection, code_roomState, code_accessMode]
      rfl
    · have hcarries := carries_enginesSection s start
      rw [code_powerPolicy, hengine] at hcarries
      exact hcarries
    · rw [State.journalSection, code_ite]
      rfl
    · rw [State.portSection, code_receiver, code_ite]
      rfl
    · rw [State.screenStatus, hscreen]
      rfl
    · rw [State.sessionField, code_ite, closingField_eq]
      rfl
  · refine ⟨rfl, List.append_assoc _ _ _, rfl, rfl, ?_⟩
    intro head tail unmetered
    refine ⟨fun h => ?_, fun g h => ?_, fun h => ?_, fun m h => ?_⟩
    all_goals
      rw [serviceField, h]
      simp only [head, tail, unmetered, List.append_assoc]
      rfl
  · exact ⟨carriesBoth_billingSection s start, carriesBoth_meterSection s start⟩
  · intro s₀ first
    refine ⟨fun hb => ?_, fun hb => ⟨exec_screenStatus hb, length_screenStatus_le _⟩, fun hb => ?_, fun hb => ?_,
      fun hb => ?_⟩
    · intro code sections
      refine ⟨fun fields h => ?_, fun h => ?_⟩
      · have hsection : s₀.statusSection code (field 1 1 r.body) = some fields := (statusSection_eq _ _ _).trans h
        exact ⟨exec_status_known hb hsection, length_statusSection_le hsection⟩
      · exact exec_status_unknown hb ((statusSection_eq _ _ _).trans (List.getElem?_eq_none h))
    · exact ⟨_, ⟨exec_lineupRead hb, length_listField_le (by simp) _ _⟩, carries_listField (by simp) _ _⟩
    · exact ⟨_, ⟨exec_catalogueRead hb, length_listField_le (by simp) _ _⟩, carries_listField (by simp) _ _⟩
    · have hfields : s.settingsReply = settingsField s.cur.settings ++
          [if s.port.fastBaud then 1 else 0, if s.port.maintenance then 1 else 0] ++
          policyField s.cur.policy ++ ratesField s.cur.rates ++ leBytes 2 s.cur.room.roomId ++
          [byte s.cur.room.group, if s.cur.unitKey.isSome then 1 else 0] := by
        rw [State.settingsReply, code_ite]
        simp only [List.append_assoc]
        rfl
      rw [← hfields]
      exact ⟨exec_settingsRead hb, length_settingsReply_le s⟩

end Sys2Proof.Machine
end

section
/-! PROOF. The step, and the laws at reset (O54, O60). -/

namespace Sys2Proof.Machine

/-- Settles O54: the two cases of the queue are those of `step`. -/
theorem stepRunsTheCommandAtTheFront : Obligations.StepRunsTheCommandAtTheFront :=
  fun s => ⟨fun hempty => by rw [step, hempty], fun _ _ => rfl⟩

/-! ## The laws at reset -/

theorem journalLaw_lost : JournalLaw .lost := ⟨Nat.le_refl 1, .nil, fun _ h => by cases h⟩

theorem meterLaw_reset : State.reset.MeterLaw :=
  ⟨⟨.nil, Nat.zero_le _, rfl⟩, ⟨.nil, Nat.zero_le _, rfl⟩, fun _ h => by cases h⟩

theorem roomLaw_reset : State.reset.RoomLaw := ⟨rfl, by decide, by decide⟩

theorem bounds_reset : State.reset.Bounds :=
  ⟨Nat.zero_le _, Nat.zero_le _, Nat.zero_le _, Nat.zero_le _, fun c => by cases c <;> decide⟩

/-- No output has a route after reset, and no service has a programme record. -/
theorem filterLaw_reset : State.reset.FilterLaw := by
  refine ⟨.nil, fun n => ⟨fun h => (Bool.false_ne_true h).elim, ?_⟩⟩
  rintro ⟨o, -, hroute⟩
  have hnone : (State.reset.output o).route = none := by fin_cases o <;> rfl
  rw [hnone] at hroute
  cases hroute

theorem bindingLaw_reset : State.reset.BindingLaw :=
  (bindingLaw_iff _).2 (.unbound fun e => by fin_cases e <;> rfl)

theorem keyLaw_reset : State.reset.KeyLaw := keyLaw_of_empty (n := 16) rfl

/-- Settles O60, law by law. -/
theorem lawsHoldAtReset : Obligations.LawsHoldAtReset :=
  ⟨meterLaw_reset, journalLaw_lost, journalLaw_lost, roomLaw_reset, ⟨.nil, .nil, Nat.zero_le _, Nat.zero_le _⟩,
    ⟨.nil, Nat.zero_le _⟩, bounds_reset, filterLaw_reset, bindingLaw_reset, keyLaw_reset⟩

end Sys2Proof.Machine
end

section
/-! PROOF. SET_TIME: where it sets property time, what it finds expired, when it is a day boundary (R120, R172 to R174;
log 11; O50). -/

namespace Sys2Proof.Machine

/-! ## The purchases a SET_TIME finds expired (R120) -/

theorem cancelling_iff (s : State) (title : Nat) :
    s.cancelling title = true ↔ ∃ q stamp, TurnWrite.cancel q stamp ∈ s.turns ∧ q.title = title := by
  unfold State.cancelling
  rw [List.any_eq_true]
  constructor
  · rintro ⟨w, hw, hq⟩
    split at hq
    · exact ⟨_, _, hw, beq_iff_eq.1 hq⟩
    · cases hq
  · rintro ⟨q, stamp, hw, hq⟩
    exact ⟨_, hw, beq_iff_eq.2 hq⟩

/-- Runs of verdicts bring no CANCEL write and take none away. -/
theorem TurnsRan.mem_cancel_iff {old new : List TurnWrite} (h : TurnsRan old new) (q : Purchase) (stamp : PTime) :
    TurnWrite.cancel q stamp ∈ new ↔ TurnWrite.cancel q stamp ∈ old := by
  obtain ⟨begun, joined, rfl, hbegun, hjoined⟩ := h
  have hjoin : TurnWrite.cancel q stamp ∉ joined := fun hw => by
    obtain hmeter | ⟨_, _, _, hclose⟩ := hjoined _ hw
    · cases hmeter
    · cases hclose
  simp only [List.mem_append, hjoin, or_false]
  constructor
  · intro hw
    obtain ⟨x, hx, rfl | ⟨-, _, hmeter⟩⟩ := forall₂_source hbegun hw
    · exact hx
    · cases hmeter
  · intro hw
    obtain ⟨y, hy, rfl | ⟨hmeter, -⟩⟩ := forall₂_source hbegun.flip hw
    · exact hy
    · cases hmeter

theorem Apart.cancelling {s s' : State} (h : Apart s s') (title : Nat) : s'.cancelling title = s.cancelling title :=
  Bool.eq_iff_iff.2 (by simp only [cancelling_iff, h.turns.mem_cancel_iff])

theorem Apart.expired {s s' : State} (h : Apart s s') : s'.billing.expired = s.billing.expired := by rw [h.billing]

theorem Apart.expiredBy {s s' : State} (h : Apart s s') (property : Option PTime) :
    s'.expiredBy property = s.expiredBy property := by
  unfold State.expiredBy
  rw [show s'.cur.purchases = s.cur.purchases by rw [h.cur], h.expired]
  simp only [h.cancelling]

theorem mem_expiredBy {s : State} {p : Purchase} (now : PTime) (hp : p ∈ s.cur.purchases) :
    p ∈ s.expiredBy (some now) ↔
      p.expiresAt.seconds ≤ now.seconds ∧
        ¬ (∃ q stamp, TurnWrite.cancel q stamp ∈ s.turns ∧ q.title = p.title) ∧
        ∀ q ∈ s.billing.expired, ¬ (q.title = p.title ∧ q.boughtAt = p.boughtAt ∧ q.number = p.number) := by
  rw [← cancelling_iff]
  simp [State.expiredBy, hp, PTime.le, Purchase.same, and_assoc]

/-- Expiry is judged on a property time just set, with the purchases, the CANCEL writes and the expired purchases of
`s`. -/
theorem judgeExpiries_of_apart {s s₁ : State} (h : Apart s s₁) :
    s₁.judgeExpiries = { s₁ with billing := { s₁.billing with
      expired := s.billing.expired ++ s.expiredBy s.time.property } } := by
  rw [← h.expiredBy, ← h.expired, ← h.time]
  exact judgeExpiries_eq s₁

/-! ## Property time (R173, R174) -/

theorem setTimeBoundary_iff (dayStart : Nat) (old new : PTime) :
    setTimeBoundary dayStart old new = true ↔
      old.day ≠ new.day ∨ old.sec < dayStart * 3600 ∧ dayStart * 3600 ≤ new.sec := by
  simp [setTimeBoundary]

theorem takeTime_unset {s : State} (h : s.time.property = none) (new : PTime) :
    s.takeTime new = (s.leaveUnset new).judgeExpiries := by
  simp only [State.takeTime, h]

theorem takeTime_forward {s : State} {old new : PTime} (h : s.time.property = some old)
    (hle : old.seconds ≤ new.seconds) : s.takeTime new = (s.moveTime old new).judgeExpiries := by
  simp only [State.takeTime, h, PTime.le, decide_eq_true hle, if_true]

theorem takeTime_backward {s : State} {old new : PTime} (h : s.time.property = some old)
    (hlt : new.seconds < old.seconds) : s.takeTime new = s.moveTime old new := by
  simp only [State.takeTime, h, PTime.le, decide_eq_false (Nat.not_le.2 hlt), Bool.false_eq_true, if_false]

theorem leaveUnset_handed (new : PTime) (s : State) : (s.leaveUnset new).decoder.handed = s.decoder.handed := by
  rw [State.leaveUnset, onlyVerdicts_handed (onlyVerdicts_rerunAll _)]
  rfl

theorem takeTime_handed (new : PTime) (s : State) : (s.takeTime new).decoder.handed = s.decoder.handed := by
  unfold State.takeTime
  split
  · exact leaveUnset_handed new s
  · split <;> rfl

theorem takeTimeBody_handed (m : MsgBody) (s : State) : (State.takeTimeBody m s).decoder.handed = s.decoder.handed := by
  unfold State.takeTimeBody
  split
  · exact takeTime_handed _ s
  · rfl

theorem exec_setTime {t issue : Nat} {s : State} {scope : Scope} {new : PTime}
    (ha : Awaits s scope issue (.setTime new)) :
    exec (.setTime t) s =
      .next (((s.receiving scope issue (.setTime new) t).takeTime new).judgeHanded s.decoder.handed) :=
  exec_takesMessage (fun _ => rfl) takeTimeBody_handed ha rfl

/-- Settles O50: from UNSET the verdicts run and expiry is judged; a move forward judges expiry; a move backward does
not. -/
theorem setTimeMovesPropertyTime : Obligations.SetTimeMovesPropertyTime := by
  intro t s scope issue new ha s₀ seconds cancelling h found backward
  have hfound {u s₁ : State} (hset : u = { s₀ with time := u.time }) (hnew : u.time.property = some new)
      (hapart : Apart u s₁) : found s₁ s₁.judgeExpiries := by
    refine ⟨s.expiredBy (some new), ?_, List.filter_sublist, fun p hp => mem_expiredBy new hp⟩
    rw [judgeExpiries_of_apart hapart, hnew, hset]
    rfl
  have answers {s₂ : State} (h : s₀.takeTime new = s₂) :
      exec (.setTime t) s = .next (s₂.judgeHanded s.decoder.handed) := h ▸ exec_setTime ha
  cases hp : s.time.property with
  | none =>
    let timed : State := s₀.onTime fun c => { c with property := some new }
    have hrun : Reran allScreens timed (s₀.leaveUnset new) := reran_rerun allScreens timed
    refine ⟨s₀.leaveUnset new, _, answers (takeTime_unset (s := s₀) hp new), ?_,
      fun _ => hfound (u := timed) rfl rfl hrun.toApart, hrun⟩
    rintro ⟨old, hold, -⟩
    cases hp.symm.trans hold
  | some old =>
    have hmoved : ∃ boundary : Bool, (boundary = true ↔ old.day ≠ new.day ∨ old.sec < h ∧ h ≤ new.sec) ∧
        s₀.moveTime old new = { s₀ with time := { s₀.time with
          property := some new, boundaryDue := s.time.boundaryDue || boundary } } :=
      ⟨_, setTimeBoundary_iff s.cur.policy.dayStart old new, rfl⟩
    rcases Nat.lt_or_ge new.seconds old.seconds with hlt | hle
    · refine ⟨s₀.moveTime old new, _, answers (takeTime_backward hp hlt),
        fun _ => rfl, fun hforward => ?_, hmoved⟩
      exact absurd ⟨old, hp, hlt⟩ hforward
    · refine ⟨s₀.moveTime old new, _, answers (takeTime_forward hp hle), ?_,
        fun _ => hfound (u := s₀.moveTime old new) rfl rfl (.refl _), hmoved⟩
      rintro ⟨_, hold, hlt⟩
      cases hp.symm.trans hold
      exact absurd hlt (Nat.not_lt.2 hle)

end Sys2Proof.Machine
end

section
/-! PROOF. The operations the commands are made of leave monotonic time and the queue of commands as they were (R172):
one lemma for each. -/

namespace Sys2Proof.Machine.State

/-- Monotonic time, and the commands that wait: what no operation changes but the passing of time and a start-up. -/
def agenda (s : State) : Nat × List Instr := (s.time.now, s.pending)

theorem agenda_of_apart {s s' : State} (h : Apart s s') : s'.agenda = s.agenda := by
  rw [agenda, h.time, h.pending]
  rfl

section

variable (s : State)

@[simp] theorem agenda_ite (c : Prop) [Decidable c] (x y : State) :
    (if c then x else y).agenda = if c then x.agenda else y.agenda := apply_ite _ _ _ _

/-- An operation that leaves monotonic time and the queue as they are does so however often it is repeated. -/
theorem agenda_foldl {f : State → α → State} (h : ∀ s x, (f s x).agenda = s.agenda) (l : List α) (s : State) :
    (l.foldl f s).agenda = s.agenda := by
  induction l generalizing s with
  | nil => rfl
  | cons x xs ih => rw [List.foldl_cons, ih, h]

/-! ## The updaters of the blocks -/

theorem agenda_onTime {f : Timebase → Timebase} (h : (f s.time).now = s.time.now) :
    (s.onTime f).agenda = s.agenda := by
  rw [agenda, onTime_time, h]
  rfl

@[simp] theorem agenda_onCur (f) : (s.onCur f).agenda = s.agenda := rfl
@[simp] theorem agenda_onStore (f) : (s.onStore f).agenda = s.agenda := rfl
@[simp] theorem agenda_durably (f) : (s.durably f).agenda = s.agenda := rfl
@[simp] theorem agenda_onRoom (f) : (s.onRoom f).agenda = s.agenda := rfl
@[simp] theorem agenda_onCells (f) : (s.onCells f).agenda = s.agenda := rfl
@[simp] theorem agenda_onProgramme (n f) : (s.onProgramme n f).agenda = s.agenda := rfl
@[simp] theorem agenda_onDecoder (f) : (s.onDecoder f).agenda = s.agenda := rfl
@[simp] theorem agenda_onKeys (f) : (s.onKeys f).agenda = s.agenda := rfl
@[simp] theorem agenda_onKeyGroup (g f) : (s.onKeyGroup g f).agenda = s.agenda := rfl
@[simp] theorem agenda_onPool (f) : (s.onPool f).agenda = s.agenda := rfl
@[simp] theorem agenda_setEngine (e v) : (s.setEngine e v).agenda = s.agenda := rfl
@[simp] theorem agenda_onRouter (f) : (s.onRouter f).agenda = s.agenda := rfl
@[simp] theorem agenda_onOutput (o f) : (s.onOutput o f).agenda = s.agenda := rfl
@[simp] theorem agenda_onOutputs (f) : (s.onOutputs f).agenda = s.agenda := rfl
@[simp] theorem agenda_onLock (f) : (s.onLock f).agenda = s.agenda := rfl
@[simp] theorem agenda_onBilling (f) : (s.onBilling f).agenda = s.agenda := rfl
@[simp] theorem agenda_onTurns (f) : (s.onTurns f).agenda = s.agenda := rfl
@[simp] theorem agenda_onJournal (f) : (s.onJournal f).agenda = s.agenda := rfl
@[simp] theorem agenda_onPort (f) : (s.onPort f).agenda = s.agenda := rfl
@[simp] theorem agenda_onSerials (f) : (s.onSerials f).agenda = s.agenda := rfl
@[simp] theorem agenda_onChoices (f) : (s.onChoices f).agenda = s.agenda := rfl

/-! ## Runs of verdicts and lapses of unlocks (R85, R110) -/

@[simp] theorem agenda_rerun (outs : List Screen) : (s.rerun outs).agenda = s.agenda :=
  agenda_of_apart (onlyVerdicts_rerun outs s).toApart

@[simp] theorem agenda_rerunAll : s.rerunAll.agenda = s.agenda := agenda_rerun ..

@[simp] theorem agenda_judgeLapses (concerned : Screen → Bool) : (s.judgeLapses concerned).agenda = s.agenda :=
  agenda_of_apart (onlyLapses_judgeLapses s concerned).toApart

@[simp] theorem agenda_moneyChanged (before : State) : (s.moneyChanged before).agenda = s.agenda :=
  agenda_of_apart (moneyChanged_verdicts s before).toApart

@[simp] theorem agenda_holdAll (e : EngineId) (outs : List Screen) : (s.holdAll e outs).agenda = s.agenda :=
  agenda_of_apart (onlyVerdicts_holdAll e outs s).toApart

@[simp] theorem agenda_dropUnlock (which : Option Screen) : (s.dropUnlock which).agenda = s.agenda := rfl

@[simp] theorem agenda_dropUnlocks : s.dropUnlocks.agenda = s.agenda := rfl

@[simp] theorem agenda_refilter : s.refilter.agenda = s.agenda := rfl

@[simp] theorem agenda_applyRoute (o : Screen) (route : Option Nat) : (s.applyRoute o route).agenda = s.agenda := by
  simp [applyRoute]

@[simp] theorem agenda_endHold : s.endHold.agenda = s.agenda :=
  (agenda_rerun ..).trans (agenda_foldl (f := fun s o => s.dropUnlock (some o)) (fun _ _ => rfl) _ _)

/-! ## Events, writes that take turns, the journal and the sessions -/

@[simp] theorem agenda_raise (c : EventClass) : (s.raise c).agenda = s.agenda := rfl

@[simp] theorem agenda_raiseTimes (c : EventClass) (n : Nat) : (s.raiseTimes c n).agenda = s.agenda := by
  induction n generalizing s with
  | zero => rfl
  | succ n ih => exact ih _

@[simp] theorem agenda_useOrder (matters : Bool) : (s.useOrder matters).agenda = s.agenda := by
  simp [useOrder]

@[simp] theorem agenda_turnsAdvance : s.turnsAdvance.agenda = s.agenda := rfl

@[simp] theorem agenda_fallDue (w : TurnWrite) : (s.fallDue w).agenda = s.agenda := rfl

@[simp] theorem agenda_meterChanged : s.meterChanged.agenda = s.agenda := by
  simp [meterChanged]

@[simp] theorem agenda_presentedChanged : s.presentedChanged.agenda = s.agenda := by
  simp [presentedChanged]

@[simp] theorem agenda_viewingChanged : s.viewingChanged.agenda = s.agenda := rfl

@[simp] theorem agenda_occupancyRose : s.occupancyRose.agenda = s.agenda := by
  simp [occupancyRose]

@[simp] theorem agenda_occupancyFell : s.occupancyFell.agenda = s.agenda := by
  simp [occupancyFell]

@[simp] theorem agenda_appendRecord (r : ChargeRecord) : (s.appendRecord r).agenda = s.agenda := rfl

@[simp] theorem agenda_present (r : ChargeRecord) : (s.present r).agenda = s.agenda := by
  simp [present]

@[simp] theorem agenda_beginClose (n : Nat) (cause : CloseCause) : (s.beginClose n cause).agenda = s.agenda := by
  unfold beginClose
  split <;> simp

@[simp] theorem agenda_closeOldest (cause : CloseCause) (p : Session → Bool) :
    (s.closeOldest cause p).agenda = s.agenda := by
  unfold closeOldest
  split <;> simp

@[simp] theorem agenda_closeFound : s.closeFound.agenda = s.agenda := agenda_closeOldest ..

@[simp] theorem agenda_addDaySpend (n units : Nat) : (s.addDaySpend n units).agenda = s.agenda := by
  simp [addDaySpend]

@[simp] theorem agenda_judgeExpiries : s.judgeExpiries.agenda = s.agenda := rfl

/-! ## Engines and keys -/

@[simp] theorem agenda_promoteKeys : s.promoteKeys.agenda = s.agenda := rfl

@[simp] theorem agenda_takeAccessOp (g : Nat) (op : AccessOp) : (s.takeAccessOp g op).agenda = s.agenda := by
  simp [takeAccessOp]

@[simp] theorem agenda_nextAccessOp (g : Nat) : (s.nextAccessOp g).agenda = s.agenda := by
  unfold nextAccessOp
  split <;> simp

@[simp] theorem agenda_activate (e : EngineId) (n : Nat) : (s.activate e n).agenda = s.agenda := rfl

@[simp] theorem agenda_onWait (f) : (s.onWait f).agenda = s.agenda := rfl

@[simp] theorem agenda_endWarmUp (e : EngineId) : (s.endWarmUp e).1.agenda = s.agenda := by
  unfold endWarmUp
  split
  · rfl
  · split <;> simp
  · rfl

@[simp] theorem agenda_powerEngines : s.powerEngines.agenda = s.agenda := by
  simp [powerEngines]

@[simp] theorem agenda_enginesOff : s.enginesOff.agenda = s.agenda := rfl

@[simp] theorem agenda_restartEngines : s.restartEngines.agenda = s.agenda := rfl

@[simp] theorem agenda_powerPolicyChanged : s.powerPolicyChanged.agenda = s.agenda := by
  simp [powerPolicyChanged]

/-! ## The Set Port -/

@[simp] theorem agenda_startSending : s.startSending.agenda = s.agenda := by
  simp [startSending]

@[simp] theorem agenda_queueFrame (f : OutFrame) : (s.queueFrame f).agenda = s.agenda := by
  simp [queueFrame]

@[simp] theorem agenda_queueError (bytes : List Byte) : (s.queueError bytes).agenda = s.agenda := by
  simp [queueError]

@[simp] theorem agenda_replyWith (st : Status) (fields : List Byte) (resets : Bool) :
    (s.replyWith st fields resets).agenda = s.agenda := by
  unfold replyWith
  split <;> simp

@[simp] theorem agenda_reply (st : Status) (fields : List Byte) : (s.reply st fields).agenda = s.agenda :=
  agenda_replyWith ..

@[simp] theorem agenda_offer (r : Request) : (s.offer r).agenda = s.agenda := by
  simp [offer]

@[simp] theorem agenda_judgeFrame (got crc : List Byte) : (s.judgeFrame got crc).agenda = s.agenda := by
  simp [judgeFrame]

@[simp] theorem agenda_setReceiver (r : Receiver) : (s.setReceiver r).agenda = s.agenda := rfl

@[simp] theorem agenda_dropFrame : s.dropFrame.agenda = s.agenda := rfl

@[simp] theorem agenda_takeChar (c : Byte) : (s.takeChar c).agenda = s.agenda := by
  unfold takeChar
  split <;> simp

@[simp] theorem agenda_arriveChar (c : Byte) : (s.arriveChar c).agenda = s.agenda := by
  simp [arriveChar]

theorem agenda_beginRequest {p : Byte → Bool} {f : Request → State → State}
    (h : ∀ r s, (f r s).agenda = s.agenda) : (s.beginRequest p f).agenda = s.agenda := by
  unfold beginRequest
  split <;> simp [h]

theorem agenda_request {kind : Nat} {group : Group} {f : List Byte → State → State}
    (h : ∀ b s, (f b s).agenda = s.agenda) : (s.request kind group f).agenda = s.agenda :=
  agenda_beginRequest s fun r s => by simp [h]

@[simp] theorem agenda_executing : s.executing.agenda = s.agenda := rfl

@[simp] theorem agenda_markGuestWaits : s.markGuestWaits.agenda = s.agenda := by
  unfold markGuestWaits
  split <;> simp

@[simp] theorem agenda_clearEvents (set : BitVec 8) : (s.clearEvents set).agenda = s.agenda := rfl

@[simp] theorem agenda_breakGap : s.breakGap.agenda = s.agenda := by
  simp [breakGap]

/-! ## The Rating Lock -/

@[simp] theorem agenda_beginLockWrite (w : LockWrite) : (s.beginLockWrite w).agenda = s.agenda := rfl

@[simp] theorem agenda_beginRoomWrite (w : RoomWrite) : (s.beginRoomWrite w).agenda = s.agenda := rfl

@[simp] theorem agenda_lockFreed : s.lockFreed.agenda = s.agenda := by
  unfold lockFreed
  split
  · rfl
  · split <;> simp

@[simp] theorem agenda_endLockWrite : s.endLockWrite.agenda = s.agenda := rfl

@[simp] theorem agenda_durableLock (f) : (s.durableLock f).agenda = s.agenda := rfl

@[simp] theorem agenda_lockoutEnded (before : State) : (s.lockoutEnded before).agenda = s.agenda := by
  simp [lockoutEnded]

@[simp] theorem agenda_grant (room : Bool) (screen : Nat) : (s.grant room screen).agenda = s.agenda := by
  unfold grant
  split
  · simp
  · split <;> simp

@[simp] theorem agenda_takeLockMessage (m : MsgBody) : (s.takeLockMessage m).agenda = s.agenda := by
  unfold takeLockMessage
  split <;> simp

@[simp] theorem agenda_takeWaiting (ms : List MsgBody) : (s.takeWaiting ms).agenda = s.agenda := by
  induction ms generalizing s with
  | nil => rfl
  | cons m ms ih => simp [takeWaiting, ih]

@[simp] theorem agenda_startLockout : s.startLockout.agenda = s.agenda := rfl

@[simp] theorem agenda_replyBadPin (lockout : Bool) : (s.replyBadPin lockout).agenda = s.agenda := agenda_reply ..

@[simp] theorem agenda_replyLockedOut : s.replyLockedOut.agenda = s.agenda := agenda_reply ..

@[simp] theorem agenda_beginFailure : s.beginFailure.agenda = s.agenda := rfl

@[simp] theorem agenda_tryUnlock (room : Bool) (screen pin : Nat) :
    (s.tryUnlock room screen pin).agenda = s.agenda := by
  simp [tryUnlock]

@[simp] theorem agenda_trySetPin (old : Option Nat) (new : Nat) : (s.trySetPin old new).agenda = s.agenda := by
  simp [trySetPin]

@[simp] theorem agenda_deferUnlock (which : Option Screen) : (s.deferUnlock which).agenda = s.agenda := rfl

@[simp] theorem agenda_endUnlock (which : Option Screen) : (s.endUnlock which).agenda = s.agenda := by
  simp [endUnlock]

@[simp] theorem agenda_endLockout : s.endLockout.agenda = s.agenda := by
  simp [endLockout]

/-! ## The Room Controller -/

@[simp] theorem agenda_endRoomWrite : s.endRoomWrite.agenda = s.agenda := rfl

@[simp] theorem agenda_advanceCheckOut : s.advanceCheckOut.agenda = s.agenda := by
  simp [advanceCheckOut]

@[simp] theorem agenda_beginCheckOut (next : Option CheckIn) : (s.beginCheckOut next).agenda = s.agenda := by
  simp [beginCheckOut]

@[simp] theorem agenda_advanceSuspend : s.advanceSuspend.agenda = s.agenda := by
  unfold advanceSuspend
  split
  · rfl
  · split <;> simp

@[simp] theorem agenda_beginNewFolio (c : CheckIn) : (s.beginNewFolio c).agenda = s.agenda := rfl

@[simp] theorem agenda_updateFolio (limit : Nat) (pin : Option Nat) : (s.updateFolio limit pin).agenda = s.agenda := by
  simp [updateFolio]

@[simp] theorem agenda_takeCheckIn (c : CheckIn) : (s.takeCheckIn c).agenda = s.agenda := by
  simp [takeCheckIn]

@[simp] theorem agenda_takeCheckOut (folio : Nat) : (s.takeCheckOut folio).agenda = s.agenda := by
  simp [takeCheckOut]

@[simp] theorem agenda_takeSetLimit (folio limit : Nat) : (s.takeSetLimit folio limit).agenda = s.agenda := by
  simp [takeSetLimit]

@[simp] theorem agenda_openWindow (minutes : Nat) : (s.openWindow minutes).agenda = s.agenda := rfl

@[simp] theorem agenda_closeWindow : s.closeWindow.agenda = s.agenda := rfl

@[simp] theorem agenda_takeRoomMessage (m : MsgBody) : (s.takeRoomMessage m).agenda = s.agenda := by
  unfold takeRoomMessage
  split <;> simp

@[simp] theorem agenda_takeHeld (ms : List MsgBody) : (s.takeHeld ms).agenda = s.agenda := by
  induction ms generalizing s with
  | nil => rfl
  | cons m ms ih => simp [takeHeld, ih]

@[simp] theorem agenda_openFolio (folio limit : Nat) (pin : Option Nat) (ceiling : Nat) :
    (s.openFolio folio limit pin ceiling).agenda = s.agenda := by
  simp [openFolio]

@[simp] theorem agenda_setLimit (limit : Nat) : (s.setLimit limit).agenda = s.agenda := rfl

@[simp] theorem agenda_replacePin (pin : Option Nat) : (s.replacePin pin).agenda = s.agenda := by
  cases pin <;> rfl

@[simp] theorem agenda_setSuspended (on : Bool) : (s.setSuspended on).agenda = s.agenda := rfl

@[simp] theorem agenda_closeForSuspension : s.closeForSuspension.agenda = s.agenda := by
  simp [closeForSuspension]

@[simp] theorem agenda_clearFolio (settling : Option Nat) : (s.clearFolio settling).agenda = s.agenda := rfl

@[simp] theorem agenda_takeNextFolio (next : Option CheckIn) : (s.takeNextFolio next).agenda = s.agenda := by
  cases next <;> rfl

@[simp] theorem agenda_completeCheckOut (settling : Option Nat) : (s.completeCheckOut settling).agenda = s.agenda := by
  simp [completeCheckOut]

@[simp] theorem agenda_beginProvision (p : Provision) : (s.beginProvision p).agenda = s.agenda := by
  simp [beginProvision]

@[simp] theorem agenda_enterNewRoom (p : Provision) : (s.enterNewRoom p).agenda = s.agenda := by
  simp [enterNewRoom]

/-! ## The Charge Journal -/

@[simp] theorem agenda_beginRelease (upTo : Nat) : (s.beginRelease upTo).agenda = s.agenda := by
  simp [beginRelease]

@[simp] theorem agenda_takeRelease (upTo : Nat) : (s.takeRelease upTo).agenda = s.agenda := by
  simp [takeRelease]

@[simp] theorem agenda_judgeSettling : s.judgeSettling.agenda = s.agenda := by
  simp [judgeSettling]

@[simp] theorem agenda_dropReleased (numbers : List Nat) (cs : List Count) :
    (s.dropReleased numbers cs).agenda = s.agenda := rfl

@[simp] theorem agenda_nextPresentation : s.nextPresentation.agenda = s.agenda := by
  simp [nextPresentation]

@[simp] theorem agenda_judgeArmed (old : Settings) : (s.judgeArmed old).agenda = s.agenda := by
  simp [judgeArmed]

@[simp] theorem agenda_judgePower (old : Settings) : (s.judgePower old).agenda = s.agenda := by
  simp [judgePower]

/-! ## The Management Decoder -/

@[simp] theorem agenda_countDrop : s.countDrop.agenda = s.agenda := rfl

@[simp] theorem agenda_recordIssue (m : Message) : (s.recordIssue m).agenda = s.agenda := by
  simp [recordIssue]

@[simp] theorem agenda_judgeHanded (ps : List (List Byte)) : (s.judgeHanded ps).agenda = s.agenda := by
  induction ps generalizing s with
  | nil => rfl
  | cons p ps ih =>
    unfold judgeHanded
    split <;> simp [ih]

@[simp] theorem agenda_handOver (p : List Byte) : (s.handOver p).agenda = s.agenda := by
  unfold handOver
  split <;> simp

theorem agenda_dispatch {k : MsgKind} {f : Message → State → State} (h : ∀ m s, (f m s).agenda = s.agenda) :
    (s.dispatch k f).agenda = s.agenda := by
  unfold dispatch
  split <;> simp [h]

theorem agenda_receive {f : MsgBody → State → State} (h : ∀ m s, (f m s).agenda = s.agenda) (m : Message) :
    (s.receive f m).agenda = s.agenda := by
  simp [receive, h]

theorem agenda_receiveRoom (m : Message) : (s.receiveRoom m).agenda = s.agenda := by
  simp [receiveRoom]

theorem agenda_receiveLock (m : Message) : (s.receiveLock m).agenda = s.agenda := by
  simp [receiveLock]

/-! ## What the property offers and sets -/

@[simp] theorem agenda_serviceChanged (n : Nat) (before : State) : (s.serviceChanged n before).agenda = s.agenda := by
  simp [serviceChanged]

@[simp] theorem agenda_setLineup (l : List Service) : (s.setLineup l).agenda = s.agenda := rfl

@[simp] theorem agenda_addService (raw : RawService) : (s.addService raw).agenda = s.agenda := by
  unfold addService
  split <;> simp

@[simp] theorem agenda_emptyLineup : s.emptyLineup.agenda = s.agenda := by
  simp [emptyLineup]

@[simp] theorem agenda_onLineupAssembly (f) : (s.onLineupAssembly f).agenda = s.agenda := rfl

@[simp] theorem agenda_takeLineup (version index count : Nat) (records : List RawService) :
    (s.takeLineup version index count records).agenda = s.agenda := by
  simp [takeLineup, agenda_foldl]

@[simp] theorem agenda_setCatalogue (l : List Title) : (s.setCatalogue l).agenda = s.agenda := by
  simp [setCatalogue]

@[simp] theorem agenda_addTitle (raw : RawTitle) : (s.addTitle raw).agenda = s.agenda := by
  unfold addTitle
  split
  · split <;> simp
  · rfl

@[simp] theorem agenda_onCatalogueAssembly (f) : (s.onCatalogueAssembly f).agenda = s.agenda := rfl

@[simp] theorem agenda_takeCatalogue (version index count : Nat) (records : List RawTitle) :
    (s.takeCatalogue version index count records).agenda = s.agenda := by
  simp [takeCatalogue, agenda_foldl]

@[simp] theorem agenda_takeTier (tier : Nat) (granted : Bool) : (s.takeTier tier granted).agenda = s.agenda := by
  unfold takeTier
  split <;> simp

@[simp] theorem agenda_takePolicy (p : Policy) : (s.takePolicy p).agenda = s.agenda := by
  simp [takePolicy]

@[simp] theorem agenda_nextPolicy : s.nextPolicy.agenda = s.agenda := by
  unfold nextPolicy
  split <;> simp

@[simp] theorem agenda_takeRates (r : Rates) : (s.takeRates r).agenda = s.agenda := by
  simp [takeRates]

@[simp] theorem agenda_nextRates : s.nextRates.agenda = s.agenda := by
  unfold nextRates
  split <;> simp

@[simp] theorem agenda_nextTiers : s.nextTiers.agenda = s.agenda := rfl

@[simp] theorem agenda_leaveUnset (new : PTime) : (s.leaveUnset new).agenda = s.agenda :=
  agenda_rerunAll _

@[simp] theorem agenda_moveTime (old new : PTime) : (s.moveTime old new).agenda = s.agenda := rfl

@[simp] theorem agenda_takeTime (new : PTime) : (s.takeTime new).agenda = s.agenda := by
  unfold takeTime
  split <;> simp

@[simp] theorem agenda_keyDropped : s.keyDropped.agenda = s.agenda := rfl

@[simp] theorem agenda_deliverKey (g : Nat) (p : Parity) (key : CellKey) : (s.deliverKey g p key).agenda = s.agenda :=
  rfl

/-! ## The bodies of messages -/

theorem agenda_takeGrant (m : MsgBody) : (takeGrant m s).agenda = s.agenda := by
  unfold takeGrant
  split <;> simp

theorem agenda_takeRevocation (m : MsgBody) : (takeRevocation m s).agenda = s.agenda := by
  unfold takeRevocation
  split <;> simp

theorem agenda_takeLineupBody (m : MsgBody) : (takeLineupBody m s).agenda = s.agenda := by
  unfold takeLineupBody
  split <;> simp

theorem agenda_takeCatalogueBody (m : MsgBody) : (takeCatalogueBody m s).agenda = s.agenda := by
  unfold takeCatalogueBody
  split <;> simp

theorem agenda_takePolicyBody (m : MsgBody) : (takePolicyBody m s).agenda = s.agenda := by
  unfold takePolicyBody
  split <;> simp

theorem agenda_takeRatesBody (m : MsgBody) : (takeRatesBody m s).agenda = s.agenda := by
  unfold takeRatesBody
  split <;> simp

theorem agenda_takeGroupKey (m : MsgBody) : (takeGroupKey m s).agenda = s.agenda := by
  unfold takeGroupKey
  split
  · split <;> simp
  · rfl

theorem agenda_takeRevokeGroup (m : MsgBody) : (takeRevokeGroup m s).agenda = s.agenda := by
  unfold takeRevokeGroup
  split <;> simp

theorem agenda_takeKeyDelivery (m : MsgBody) : (takeKeyDelivery m s).agenda = s.agenda := by
  unfold takeKeyDelivery
  split
  · split <;> simp
  · rfl

theorem agenda_takeReleaseBody (m : MsgBody) : (takeReleaseBody m s).agenda = s.agenda := by
  unfold takeReleaseBody
  split <;> simp

theorem agenda_takeTimeBody (m : MsgBody) : (takeTimeBody m s).agenda = s.agenda := by
  unfold takeTimeBody
  split <;> simp

theorem agenda_takeFullReset (m : MsgBody) : (takeFullReset m s).agenda = s.agenda := by
  unfold takeFullReset
  split <;> simp

/-! ## Distribution cells -/

@[simp] theorem agenda_cellDecoded (e : EngineId) (n : Nat) (parity : Option Parity) :
    (s.cellDecoded e n parity).agenda = s.agenda := by
  unfold cellDecoded
  split <;> simp

@[simp] theorem agenda_deliver (n : Nat) (payload : List Byte) : (s.deliver n payload).agenda = s.agenda := rfl

@[simp] theorem agenda_passMedia (n count : Nat) (payload : List Byte) (sc : Scramble) :
    (s.passMedia n count payload sc).agenda = s.agenda := by
  unfold passMedia
  split
  · simp
  · simp
  · split <;> simp
  · rfl

@[simp] theorem agenda_acceptMedia (n count : Nat) (payload : List Byte) (sc : Scramble) :
    (s.acceptMedia n count payload sc).agenda = s.agenda := by
  simp [acceptMedia]

@[simp] theorem agenda_arriveMedia (cell : List Byte) : (s.arriveMedia cell).agenda = s.agenda := by
  unfold arriveMedia
  split <;> simp

@[simp] theorem agenda_programmeChanged (n : Nat) (before : State) :
    (s.programmeChanged n before).agenda = s.agenda := by
  simp [programmeChanged]

@[simp] theorem agenda_acceptDescriptor (n title rating : Nat) :
    (s.acceptDescriptor n title rating).agenda = s.agenda := by
  simp [acceptDescriptor]

@[simp] theorem agenda_arriveDescriptor (cell : List Byte) : (s.arriveDescriptor cell).agenda = s.agenda := by
  simp [arriveDescriptor]

@[simp] theorem agenda_arriveManagement (cell : List Byte) : (s.arriveManagement cell).agenda = s.agenda := by
  simp [arriveManagement]

/-! ## Routes, and RESTART_STREAMS -/

@[simp] theorem agenda_tuneTo (o : Screen) (n : Nat) : (s.tuneTo o n).agenda = s.agenda := by
  simp [tuneTo]

@[simp] theorem agenda_switchOff (o : Screen) : (s.switchOff o).agenda = s.agenda := by
  simp [switchOff]

@[simp] theorem agenda_emptyProgrammes : s.emptyProgrammes.agenda = s.agenda := by
  simp [emptyProgrammes]

@[simp] theorem agenda_restartOutputs : s.restartOutputs.agenda = s.agenda := by
  simp [restartOutputs]

/-! ## Sales, meter closes and the other writes of the Billing Unit -/

@[simp] theorem agenda_beginBuy (p : Purchase) : (s.beginBuy p).agenda = s.agenda := rfl

@[simp] theorem agenda_beginCancel (p : Purchase) (time : PTime) : (s.beginCancel p time).agenda = s.agenda := rfl

@[simp] theorem agenda_cancelOwned (p : Purchase) : (s.cancelOwned p).agenda = s.agenda := by
  unfold cancelOwned
  split <;> simp

@[simp] theorem agenda_sell (p : Purchase) : (s.sell p).agenda = s.agenda := by
  simp [sell]

@[simp] theorem agenda_refund (p : Purchase) (stamp : PTime) : (s.refund p stamp).agenda = s.agenda := by
  simp [refund]

@[simp] theorem agenda_nothingPending : s.nothingPending.agenda = s.agenda := rfl

@[simp] theorem agenda_endSession (x : Session) (stamp : PTime) (charged : Bool) :
    (s.endSession x stamp charged).agenda = s.agenda := by
  simp [endSession]

@[simp] theorem agenda_afterClose (n : Nat) : (s.afterClose n).agenda = s.agenda := by
  unfold afterClose
  dsimp only
  split <;> simp

@[simp] theorem agenda_nextMeterWrite : s.nextMeterWrite.agenda = s.agenda := by
  simp [nextMeterWrite]

@[simp] theorem agenda_removeExpired (p : Purchase) : (s.removeExpired p).agenda = s.agenda := rfl

@[simp] theorem agenda_expire (p : Purchase) : (s.expire p).agenda = s.agenda := by
  simp [expire]

/-! ## The tick, the accruals and the boundaries -/

@[simp] theorem agenda_tickTime : s.tickTime.agenda = s.agenda := by
  unfold tickTime
  split <;> rfl

@[simp] theorem agenda_countViewing : s.countViewing.agenda = s.agenda := by
  unfold countViewing
  dsimp only
  split <;> simp

@[simp] theorem agenda_countMetered : s.countMetered.agenda = s.agenda := by
  simp [countMetered]

@[simp] theorem agenda_tick : s.tick.agenda = s.agenda := by
  simp [tick, agenda_onTime]

@[simp] theorem agenda_accrue (x : Session) (net : Nat) : (s.accrue x net).agenda = s.agenda := by
  simp [accrue]

@[simp] theorem agenda_endAccrual (n : Nat) : (s.endAccrual n).agenda = s.agenda := rfl

@[simp] theorem agenda_judgeBlock (x : Session) (terms : MeterTerms) : (s.judgeBlock x terms).agenda = s.agenda := by
  unfold judgeBlock
  dsimp only
  split
  · split <;> simp
  · simp

@[simp] theorem agenda_emptyDaySpend : s.emptyDaySpend.agenda = s.agenda := by
  simp [emptyDaySpend]

@[simp] theorem agenda_judgeSessions : s.judgeSessions.agenda = s.agenda := by
  unfold judgeSessions
  dsimp only
  split
  · split <;> simp
  · rw [agenda_rerun]
    split <;> simp

@[simp] theorem agenda_judgeShown (changed : Screen → Bool) : (s.judgeShown changed).agenda = s.agenda := by
  simp [judgeShown]

@[simp] theorem agenda_showAll : s.showAll.agenda = s.agenda := by
  simp [showAll]

@[simp] theorem agenda_nextBoundary : s.nextBoundary.agenda = s.agenda := rfl

@[simp] theorem agenda_changePresence (o : Screen) (display : Bool) :
    (s.changePresence o display).agenda = s.agenda := by
  simp [changePresence]

@[simp] theorem agenda_probe (o : Screen) (display : Bool) : (s.probe o display).agenda = s.agenda := by
  simp [probe]

/-! ## Start-up and the loss of power (R172, R178) -/

@[simp] theorem agenda_finishStartUp : s.finishStartUp.agenda = s.agenda := by
  rw [finishStartUp_eq]
  rfl

/-- A start-up begins with monotonic time at 0. -/
theorem agenda_startUp (boot : Boot) (fastBaud maintenance : Bool) :
    (s.startUp boot fastBaud maintenance).agenda = (0, s.pending) := by
  rw [startUp_started, agenda_closeFound]
  unfold started
  dsimp only
  split <;> rfl

theorem agenda_fullReset (boot : Boot) : (s.fullReset boot).agenda = (0, s.pending) := agenda_startUp ..

theorem agenda_powerUp (fastBaud maintenance : Bool) (boot : Boot) :
    (s.powerUp fastBaud maintenance boot).agenda = (0, s.pending) := agenda_startUp ..

theorem agenda_powerDown : s.powerDown.agenda = (0, s.pending) := rfl

end

end Sys2Proof.Machine.State
end

section
/-! PROOF. Every command answers a next state, leaves the queue as it was, and sets monotonic time back only to 0, at a
start-up or a power loss (R172, R177, R178; logs 1 and 32; O55). -/

namespace Sys2Proof.Machine

/-! ## What it is to go on -/

/-- The part goes on from `s` as `o` answers: the queue is as it was, and monotonic time has not run back, but to 0
where the part restarts. -/
def GoesOn (restarts : Prop) (s : State) (o : Out) : Prop :=
  ∃ s', o = .next s' ∧ s'.pending = s.pending ∧ (s.time.now ≤ s'.time.now ∨ restarts ∧ s'.time.now = 0)

namespace GoesOn

variable {restarts : Prop} {t : Nat} {s : State}

theorem restarted {s' : State} (hr : restarts) (h : s'.agenda = (0, s.pending)) : GoesOn restarts s (.next s') :=
  ⟨s', rfl, congrArg Prod.snd h, .inr ⟨hr, congrArg Prod.fst h⟩⟩

/-- A command that occurs and leaves monotonic time and the queue as they are, or restarts the part. -/
theorem occursOrRestarts {f : State → State}
    (h : (f (s.atInstant t)).agenda = (s.atInstant t).agenda ∨
      restarts ∧ (f (s.atInstant t)).agenda = (0, s.pending)) :
    GoesOn restarts s (occurs t f s) := by
  by_cases hp : s.power = .off
  · exact ⟨s, occurs_unpowered hp t f, rfl, .inl (Nat.le_refl _)⟩
  · rw [occurs_powered hp]
    obtain hkept | ⟨hr, hzero⟩ := h
    · exact ⟨_, rfl, congrArg Prod.snd hkept, .inl ((Nat.le_max_left _ t).trans_eq (congrArg Prod.fst hkept).symm)⟩
    · exact restarted hr hzero

theorem occurs {f : State → State} (h : ∀ s, (f s).agenda = s.agenda) : GoesOn restarts s (occurs t f s) :=
  occursOrRestarts (.inl (h _))

theorem request {kind : Nat} {group : Group} {f : List Byte → State → State}
    (h : ∀ b s, (f b s).agenda = s.agenda) : GoesOn restarts s (Machine.occurs t (·.request kind group f) s) :=
  occurs fun s => s.agenda_request h

theorem query {kind : Nat} {group : Group} {fields : List Byte → State → List Byte} :
    GoesOn restarts s (Machine.occurs t (·.request kind group fun b s => s.reply .ok (fields b s)) s) :=
  request fun _ s => s.agenda_reply ..

theorem message {k : MsgKind} {f : Message → State → State} (h : ∀ m s, (f m s).agenda = s.agenda) :
    GoesOn restarts s (Machine.occurs t (·.dispatch k f) s) :=
  occurs fun s => s.agenda_dispatch h

/-- A message for an owner that takes messages as they come. -/
theorem taken {k : MsgKind} {f : MsgBody → State → State} (h : ∀ m s, (f m s).agenda = s.agenda) :
    GoesOn restarts s (Machine.occurs t (·.dispatch k (.receive f)) s) :=
  message fun m s => s.agenda_receive h m

end GoesOn

/-! ## The commands that may restart the part (R160, R177, R178) -/

/-- Where a command begins a start-up, or the part loses its power. -/
def Restarts (s : State) : Instr → Prop
  | .powerOn .. | .powerLoss => True
  | .resetSerialWriteComplete _ serial _ => serial ∈ s.serials
  | .frameTransmitted .. => s.port.transmitter = .reply ∧ ∃ f fs, s.port.outbound = f :: fs ∧ f.resets = true
  | .lineBreak .. => s.port.opened = true ∧ s.port.lineBreak = false ∧ ∃ f ∈ s.port.outbound, f.resets = true
  | _ => False

theorem goesOn_powerLoss (s : State) : GoesOn True s (execPowerLoss s) := by
  unfold execPowerLoss
  split
  · exact ⟨s, rfl, rfl, .inl (Nat.le_refl _)⟩
  · exact .restarted trivial s.agenda_powerDown

theorem goesOn_resetSerialWriteComplete (t serial : Nat) (boot : Boot) (s : State) :
    GoesOn (serial ∈ s.serials) s (execResetSerialWriteComplete t serial boot s) := by
  refine .occursOrRestarts ?_
  split
  next hs => exact .inr ⟨List.contains_iff_mem.1 hs, State.agenda_fullReset ..⟩
  next => exact .inl rfl

theorem replySent_agenda (boot : Boot) (s : State) :
    (s.replySent boot).agenda = s.agenda ∨
      (∃ f fs, s.port.outbound = f :: fs ∧ f.resets = true) ∧ (s.replySent boot).agenda = (0, s.pending) := by
  unfold State.replySent
  split
  next f fs hf =>
    dsimp only
    split
    next hresets => exact .inr ⟨⟨f, fs, hf, hresets⟩, State.agenda_fullReset ..⟩
    next => exact .inl (State.agenda_startSending _)
  next => exact .inl rfl

theorem goesOn_frameTransmitted (t : Nat) (boot : Boot) (s : State) :
    GoesOn (Restarts s (.frameTransmitted t boot)) s (execFrameTransmitted t boot s) := by
  refine .occursOrRestarts ?_
  split
  next => exact .inl rfl
  next hreply => exact (replySent_agenda boot (s.atInstant t)).imp id fun h => ⟨⟨hreply, h.1⟩, h.2⟩
  next => exact .inl (State.agenda_startSending _)

theorem breakLine_agenda (boot : Boot) (s : State) :
    (s.breakLine boot).agenda = s.agenda ∨
      (∃ f ∈ s.port.outbound, f.resets = true) ∧ (s.breakLine boot).agenda = (0, s.pending) := by
  have hbroken : ((s.breakGap.raise .link).onPort .broken).agenda = s.agenda := by simp
  unfold State.breakLine
  dsimp only
  split
  next hresets =>
    exact .inr ⟨List.any_eq_true.1 hresets, (State.agenda_fullReset ..).trans (congrArg (0, ·.2) hbroken)⟩
  next => exact .inl hbroken

theorem goesOn_lineBreak (t : Nat) (boot : Boot) (s : State) :
    GoesOn (Restarts s (.lineBreak t boot)) s (execLineBreak t boot s) := by
  refine .occursOrRestarts ?_
  split
  next hopen =>
    exact (breakLine_agenda boot (s.atInstant t)).imp id fun h => ⟨⟨hopen.1, hopen.2, h.1⟩, h.2⟩
  next => exact .inl rfl

/-! ## Every command -/

theorem goesOn_purchaseExpiry {restarts : Prop} (t title : Nat) (s : State) :
    GoesOn restarts s (execPurchaseExpiry t title s) := by
  refine .occurs fun s => ?_
  split
  next =>
    split
    next => rfl
    next =>
      dsimp only
      split <;> simp
  next => rfl

theorem goesOn_exec (c : Instr) (s : State) : GoesOn (Restarts s c) s (exec c s) := by
  cases c with
  | powerOn fastBaud maintenance boot => exact .restarted trivial (s.agenda_powerUp ..)
  | startUpStage5 t =>
    exact show GoesOn _ s (execStartUpStage5 t s) from .occurs fun s => by simp
  | lineBreak t boot => exact goesOn_lineBreak t boot s
  | lineBreakEnd t =>
    exact show GoesOn _ s (execLineBreakEnd t s) from .occurs fun s => by simp
  | frameReceived t chars => exact .occurs fun s => s.agenda_foldl (fun s c => s.agenda_arriveChar c) chars
  | frameGapTimeout t =>
    exact show GoesOn _ s (execFrameGapTimeout t s) from .occurs fun s => by simp
  | frameTransmitted t boot => exact goesOn_frameTransmitted t boot s
  | chargePresented t =>
    exact show GoesOn _ s (execChargePresented t s) from .occurs fun s => by split <;> simp
  | status t => exact .request fun b s => by split <;> simp
  | screenStatus t => exact .query
  | lineupRead t => exact .query
  | catalogueRead t => exact .query
  | readEvents t => exact .query
  | clearEvents t => exact .request fun b s => by split <;> simp
  | setEventMask t => exact .request fun b s => by split <;> simp
  | journalRead t => exact .request fun b s => by split <;> simp
  | journalRewind t => exact .request fun b s => by simp
  | journalMode t => exact .request fun b s => by split <;> simp
  | settingsRead t => exact .query
  | tune t => exact .request fun b s => by split <;> simp
  | screenOff t => exact .request fun b s => by split <;> simp
  | routeHold t => exact .request fun b s => by simp
  | routeRelease t => exact .request fun b s => by simp
  | relock t => exact .request fun b s => by split <;> simp
  | quote t => exact .request fun b s => by split <;> simp
  | buy t => exact .request fun b s => by split <;> simp
  | cancel t => exact .request fun b s => by split <;> [simp; split <;> simp]
  | unlock t => exact .request fun b s => by split <;> simp
  | setPin t => exact .request fun b s => by split <;> simp
  | restartStreams t => exact .request fun b s => by simp
  | settingsWrite t => exact .request fun b s => by split <;> simp
  | provision t => exact .request fun b s => by simp
  | fullReset t => exact .request fun b s => by simp
  | unknownRequest t => exact .occurs fun s => s.agenda_beginRequest fun r s => s.agenda_reply ..
  | mediaCell t cell => exact .occurs fun s => s.agenda_arriveMedia cell
  | descriptorCell t cell => exact .occurs fun s => s.agenda_arriveDescriptor cell
  | managementCell t cell => exact .occurs fun s => s.agenda_arriveManagement cell
  | filler t cell => exact .occurs fun s => rfl
  | checkIn t => exact .message fun m s => s.agenda_receiveRoom m
  | checkOut t => exact .message fun m s => s.agenda_receiveRoom m
  | setLimit t => exact .message fun m s => s.agenda_receiveRoom m
  | serviceOpen t => exact .message fun m s => s.agenda_receiveRoom m
  | serviceClose t => exact .message fun m s => s.agenda_receiveRoom m
  | suspend t => exact .message fun m s => s.agenda_receiveRoom m
  | resume t => exact .message fun m s => s.agenda_receiveRoom m
  | lockdown t => exact .message fun m s => s.agenda_receiveRoom m
  | pinReset t => exact .message fun m s => s.agenda_receiveLock m
  | setCeiling t => exact .message fun m s => s.agenda_receiveLock m
  | bar t => exact .message fun m s => s.agenda_receiveLock m
  | grantTier t => exact .taken fun m s => s.agenda_takeGrant m
  | revokeTier t => exact .taken fun m s => s.agenda_takeRevocation m
  | groupKey t => exact .taken fun m s => s.agenda_takeGroupKey m
  | revokeGroup t => exact .taken fun m s => s.agenda_takeRevokeGroup m
  | releaseCharges t => exact .taken fun m s => s.agenda_takeReleaseBody m
  | setTime t => exact .taken fun m s => s.agenda_takeTimeBody m
  | lineup t => exact .taken fun m s => s.agenda_takeLineupBody m
  | catalogue t => exact .taken fun m s => s.agenda_takeCatalogueBody m
  | keyDelivery t => exact .taken fun m s => s.agenda_takeKeyDelivery m
  | setPolicy t => exact .taken fun m s => s.agenda_takePolicyBody m
  | setRates t => exact .taken fun m s => s.agenda_takeRatesBody m
  | fullResetMessage t => exact .taken fun m s => s.agenda_takeFullReset m
  | heldMessageTaken t =>
    exact show GoesOn _ s (execHeldMessageTaken t s) from .occurs fun s => by simp
  | waitingMessageTaken t =>
    exact show GoesOn _ s (execWaitingMessageTaken t s) from .occurs fun s => by simp
  | keptReleaseBegin t =>
    exact show GoesOn _ s (execKeptReleaseBegin t s) from .occurs fun s => by split <;> simp
  | newFolioWriteComplete t =>
    exact show GoesOn _ s (execNewFolioWriteComplete t s) from .occurs fun s => by split <;> simp
  | folioUpdateWriteComplete t =>
    exact show GoesOn _ s (execFolioUpdateWriteComplete t s) from .occurs fun s => by split <;> simp
  | limitWriteComplete t =>
    exact show GoesOn _ s (execLimitWriteComplete t s) from .occurs fun s => by split <;> simp
  | suspendWriteComplete t =>
    exact show GoesOn _ s (execSuspendWriteComplete t s) from .occurs fun s => by split <;> simp
  | resumeWriteComplete t =>
    exact show GoesOn _ s (execResumeWriteComplete t s) from .occurs fun s => by split <;> simp
  | lockdownWriteComplete t =>
    exact show GoesOn _ s (execLockdownWriteComplete t s) from .occurs fun s => by split <;> simp
  | checkoutClearingComplete t =>
    exact show GoesOn _ s (execCheckoutClearingComplete t s) from .occurs fun s => by split <;> simp
  | provisionWriteComplete t =>
    exact show GoesOn _ s (execProvisionWriteComplete t s) from .occurs fun s => by split <;> simp
  | resetSerialWriteComplete t serial boot => exact goesOn_resetSerialWriteComplete t serial boot s
  | ceilingWriteComplete t =>
    exact show GoesOn _ s (execCeilingWriteComplete t s) from .occurs fun s => by split <;> simp
  | barWriteComplete t =>
    exact show GoesOn _ s (execBarWriteComplete t s) from .occurs fun s => by split <;> simp
  | pinResetWriteComplete t =>
    exact show GoesOn _ s (execPinResetWriteComplete t s) from .occurs fun s => by split <;> simp
  | setPinWriteComplete t =>
    exact show GoesOn _ s (execSetPinWriteComplete t s) from .occurs fun s => by split <;> simp
  | pinFailureWriteComplete t =>
    exact show GoesOn _ s (execPinFailureWriteComplete t s) from .occurs fun s => by split <;> simp
  | unlockWriteComplete t =>
    exact show GoesOn _ s (execUnlockWriteComplete t s) from .occurs fun s => by split <;> simp
  | lockoutClearWriteComplete t =>
    exact show GoesOn _ s (execLockoutClearWriteComplete t s) from .occurs fun s => by split <;> simp
  | buyWriteComplete t =>
    exact show GoesOn _ s (execBuyWriteComplete t s) from .occurs fun s => by split <;> simp
  | cancelWriteComplete t =>
    exact show GoesOn _ s (execCancelWriteComplete t s) from .occurs fun s => by split <;> simp
  | meterCloseComplete t service =>
    exact show GoesOn _ s (execMeterCloseComplete t service s) from .occurs fun s => by split <;> simp
  | meterWriteComplete t =>
    exact show GoesOn _ s (execMeterWriteComplete t s) from .occurs fun s => by split <;> simp
  | viewingWriteComplete t =>
    exact show GoesOn _ s (execViewingWriteComplete t s) from .occurs fun s => by simp
  | expiryWriteComplete t title =>
    exact show GoesOn _ s (execExpiryWriteComplete t title s) from .occurs fun s => by split <;> simp
  | policyWriteComplete t =>
    exact show GoesOn _ s (execPolicyWriteComplete t s) from .occurs fun s => by split <;> simp
  | ratesWriteComplete t =>
    exact show GoesOn _ s (execRatesWriteComplete t s) from .occurs fun s => by split <;> simp
  | tierWriteComplete t =>
    exact show GoesOn _ s (execTierWriteComplete t s) from .occurs fun s => by split <;> simp
  | releaseWriteComplete t =>
    exact show GoesOn _ s (execReleaseWriteComplete t s) from .occurs fun s => by split <;> simp
  | presentationWriteComplete t =>
    exact show GoesOn _ s (execPresentationWriteComplete t s) from .occurs fun s => by split <;> simp
  | accessKeyInstallComplete t group =>
    exact show GoesOn _ s (execAccessKeyInstallComplete t group s) from .occurs fun s => by split <;> simp
  | groupRevokeComplete t group =>
    exact show GoesOn _ s (execGroupRevokeComplete t group s) from .occurs fun s => by split <;> simp
  | settingsWriteComplete t =>
    exact show GoesOn _ s (execSettingsWriteComplete t s) from .occurs fun s => by split <;> simp
  | tick t =>
    exact show GoesOn _ s (execTick t s) from .occurs fun s => by simp
  | purchaseExpiry t title => exact goesOn_purchaseExpiry t title s
  | blockAccrual t service =>
    exact show GoesOn _ s (execBlockAccrual t service s) from .occurs fun s => by split <;> simp
  | previewAllowanceReached t title =>
    exact show GoesOn _ s (execPreviewAllowanceReached t title s) from .occurs fun s => by simp
  | dayBoundary t =>
    exact show GoesOn _ s (execDayBoundary t s) from .occurs fun s => by simp [State.agenda_onTime]
  | frameBoundary t =>
    exact show GoesOn _ s (execFrameBoundary t s) from .occurs fun s => by simp
  | noSignalDeadline t service =>
    exact show GoesOn _ s (execNoSignalDeadline t service s) from .occurs fun s => by split <;> simp
  | stalenessDeadline t service =>
    exact show GoesOn _ s (execStalenessDeadline t service s) from .occurs fun s => by split <;> simp
  | noKeyDeadline t engine =>
    exact show GoesOn _ s (execNoKeyDeadline t engine s) from .occurs fun s => by split <;> simp
  | warmUpEnd t engine =>
    exact show GoesOn _ s (execWarmUpEnd t engine s) from .occurs fun s => by split <;> simp
  | idleDeadline t engine =>
    exact show GoesOn _ s (execIdleDeadline t engine s) from .occurs fun s => by split <;> simp
  | noTitleDeadline t screen =>
    exact show GoesOn _ s (execNoTitleDeadline t screen s) from .occurs fun s => by simp
  | routeHoldDeadline t =>
    exact show GoesOn _ s (execRouteHoldDeadline t s) from .occurs fun s => by simp
  | presenceProbe t screen display =>
    exact show GoesOn _ s (execPresenceProbe t screen display s) from .occurs fun s => by simp
  | unlockEndInstant t screen =>
    exact show GoesOn _ s (execUnlockEndInstant t screen s) from .occurs fun s => by split <;> simp
  | lockoutDeadline t =>
    exact show GoesOn _ s (execLockoutDeadline t s) from .occurs fun s => by simp
  | rejoinExpiry t service =>
    exact show GoesOn _ s (execRejoinExpiry t service s) from .occurs fun s => by split <;> simp
  | maintenanceWindowEnd t =>
    exact show GoesOn _ s (execMaintenanceWindowEnd t s) from .occurs fun s => by simp
  | frameBegins t =>
    exact show GoesOn _ s (execFrameBegins t s) from .occurs fun s => by simp
  | badLength t length =>
    exact show GoesOn _ s (execBadLength t length s) from .occurs fun s => by simp
  | powerLoss => exact goesOn_powerLoss s

/-- Settles O55: it is `GoesOn` of every command, with `Restarts` written out. -/
theorem everyCommandAnswersANextState : Obligations.EveryCommandAnswersANextState := goesOn_exec

end Sys2Proof.Machine
end
